-- ==== Sys2Proof/Word.lean ====
section
/-!
DEFINITION. The bit-vector types of the block's buses: the raw register byte, the key set, the radius and the
request and response words (00_scope.md R11, R12; 30_encoding.md R70, R77, R79, R81, R83).
-/

namespace Sys2Proof

/-- RAW and OUT_BYTE: 8 bits, bit 0 the least significant (R27, R51). -/
abbrev Byte := BitVec 8

/-- A key set as it travels: bit `i` is 1 exactly when the key of index `i` is in the set (R77). -/
abbrev KeySet := BitVec 36

/-- The RADIUS field, 32 bits, two's complement (R79). -/
abbrev RadiusField := BitVec 32

/-- The 84-bit request word (R81). -/
abbrev RequestWord := BitVec 84

/-- The 48-bit response word (R83). -/
abbrev ResponseWord := BitVec 48

end Sys2Proof
end

