-- ==== Sys2Proof/Syntax.lean ====
section
/-!
DEFINITION. The key vocabulary (10_state.md R21) and the eight operations with the operands each one reads
(30_encoding.md R82).
-/

namespace Sys2Proof

/-- The 36 key values in the declared order of R21. -/
inductive Key where
  | discN | discNNE | discNE | discENE | discE | discESE | discSE | discSSE
  | discS | discSSW | discSW | discWSW | discW | discWNW | discNW | discNNW
  | keypad0 | keypad1 | keypad2 | keypad3 | keypad4 | keypad5 | keypad6 | keypad7 | keypad8 | keypad9
  | keypadClear | keypadEnter
  | actionKeyTop | actionKeyBottomLeft | actionKeyBottomRight
  | none | noneActive | discActive | actionKeyActive | keypadActive
  deriving DecidableEq, Repr

/-- The four disjoint families of R21. -/
inductive KeyFamily where
  | disc | keypad | action | marker
  deriving DecidableEq, Repr

/-- MODE (R80): the partial-match or the all-matches disc mode. -/
inductive DiscMode where
  | partialMatch | allMatches
  deriving DecidableEq, Repr

/-- The eight operations of R82. An operation holds the fields R82 lists for it and no other (R84). A key-set operand
is `none` when the key set is `absent`, that is KS_PRESENT = 0, where KS is ignored (R29, R78). -/
inductive Instr where
  /-- OP 0, DECODE (R140). -/
  | decode (raw : Byte)
  /-- OP 1, ENCODE (R142). -/
  | encode (ks : Option KeySet)
  /-- OP 2, DECODE_DISC (R104). -/
  | decodeDisc (raw : Byte) (mode : DiscMode)
  /-- OP 3, DECODE_KEYPAD (R120). -/
  | decodeKeypad (raw : Byte)
  /-- OP 4, DECODE_ACTION (R121). -/
  | decodeAction (raw : Byte)
  /-- OP 5, EXPAND (R171). -/
  | expand (ks : Option KeySet) (radius : RadiusField)
  /-- OP 6, IS_RESERVED_KEYS (R191). -/
  | isReservedKeys (ks : Option KeySet)
  /-- OP 7, IS_RESERVED_BYTE (R190). -/
  | isReservedByte (raw : Byte)
  deriving DecidableEq, Repr

end Sys2Proof
end

