-- ==== Sys2Proof/WellFormed.lean ====
section
/-!
DEFINITION. Well-formedness of what a requester sends. R85: no encoding is illegal and every operand value is legal,
so an operation has nothing to check; the one duty of a requester is to write 0 in the reserved request bits.
-/

namespace Sys2Proof

/-- Every operation with typed operands is well formed: "every RAW value is legal" and "every KS, MODE and RADIUS
value is legal" (R85), an absent key set included (R29). -/
def Instr.wellFormed : Instr → Bool
  | .decode _ => true
  | .encode _ => true
  | .decodeDisc _ _ => true
  | .decodeKeypad _ => true
  | .decodeAction _ => true
  | .expand _ _ => true
  | .isReservedKeys _ => true
  | .isReservedByte _ => true

/-- "Request bits 7 to 5 are reserved: a requester writes 0 there" (R85). The block ignores them, so an ill-formed
word is still served. -/
def requestWordWellFormed (w : RequestWord) : Bool :=
  w.extractLsb' 5 3 == 0#3

end Sys2Proof
end

