-- ==== Sys2Proof/Decode.lean ====
section
/-!
DEFINITION. The decoder from request words to operations (30_encoding.md R81, R82, R84, R85), total, and after it the
encoder, written from the same field layout.
-/

namespace Sys2Proof

/-! ### The fields of a request word (R81) -/

/-- OP, bits 2:0. -/
def reqOp (w : RequestWord) : BitVec 3 := w.extractLsb' 0 3

/-- MODE, bit 3. -/
def reqMode (w : RequestWord) : Bool := w.getLsbD 3

/-- KS_PRESENT, bit 4. -/
def reqKsPresent (w : RequestWord) : Bool := w.getLsbD 4

/-- RAW, bits 15:8. -/
def reqRaw (w : RequestWord) : Byte := w.extractLsb' 8 8

/-- RADIUS, bits 47:16. -/
def reqRadius (w : RequestWord) : RadiusField := w.extractLsb' 16 32

/-- KS, bits 83:48. -/
def reqKs (w : RequestWord) : KeySet := w.extractLsb' 48 36

/-- MODE = 0 selects the partial-match mode and MODE = 1 the all-matches mode (R80). -/
def discModeOf (mode : Bool) : DiscMode :=
  if mode then .allMatches else .partialMatch

/-- The key-set operand: KS_PRESENT = 0 means `absent`, and KS is then ignored (R78). -/
def reqKeySet (w : RequestWord) : Option KeySet :=
  if reqKsPresent w then some (reqKs w) else none

/-! ### The decoder -/

/-- The operation a request word asks for. All eight OP values name an operation (R82, R85), so the last branch is
OP = 7; fields the operation does not read are dropped (R84). -/
def decode (w : RequestWord) : Instr :=
  if reqOp w = 0#3 then .decode (reqRaw w)
  else if reqOp w = 1#3 then .encode (reqKeySet w)
  else if reqOp w = 2#3 then .decodeDisc (reqRaw w) (discModeOf (reqMode w))
  else if reqOp w = 3#3 then .decodeKeypad (reqRaw w)
  else if reqOp w = 4#3 then .decodeAction (reqRaw w)
  else if reqOp w = 5#3 then .expand (reqKeySet w) (reqRadius w)
  else if reqOp w = 6#3 then .isReservedKeys (reqKeySet w)
  else .isReservedByte (reqRaw w)

/-- Why bits from outside are not a request. -/
inductive DecodeError where
  /-- The number has a bit above bit 83, so it is not one 84-bit request word (R81, R86). Safe: nothing runs. -/
  | notOneRequestWord
  deriving DecidableEq, Repr

/-- The decoder on bits from outside, numbered as R81 numbers them: total, and rejecting by name what is no request
word. -/
def decodeBits (w : Nat) : Except DecodeError Instr :=
  if w < 2 ^ 84 then .ok (decode (BitVec.ofNat 84 w)) else .error .notOneRequestWord

/-- The request word whose low `nbits` bits are those of `w` and whose other bits are 0. -/
def requestOfTableWord (nbits w : Nat) : RequestWord :=
  BitVec.ofNat 84 (w % 2 ^ nbits)

/-- The instruction the decoder reads from a word of the opcode table's numbering, all bits above `nbits` being 0. -/
def decodeTableWord (nbits w : Nat) : Option Instr :=
  match decodeBits (w % 2 ^ nbits) with
  | .ok i => some i
  | .error _ => none

/-! ### The encoder -/

/-- The request word with these fields, reserved bits 7:5 written as 0 (R81, R85). -/
def packRequest (op : BitVec 3) (mode ksPresent : Bool) (raw : Byte) (radius : RadiusField) (ks : KeySet) :
    RequestWord :=
  op.setWidth 84 ||| (BitVec.ofBool mode).setWidth 84 <<< 3 ||| (BitVec.ofBool ksPresent).setWidth 84 <<< 4 |||
    raw.setWidth 84 <<< 8 ||| radius.setWidth 84 <<< 16 ||| ks.setWidth 84 <<< 48

/-- MODE as a bit (R80). -/
def modeBit : DiscMode → Bool
  | .partialMatch => false
  | .allMatches => true

/-- KS for a key-set operand; a requester writes 0 where the set is absent. -/
def ksField (ks : Option KeySet) : KeySet := ks.getD 0#36

/-- The request word of an operation, every field it does not read written as 0. -/
def encode : Instr → RequestWord
  | .decode raw => packRequest 0#3 false false raw 0#32 0#36
  | .encode ks => packRequest 1#3 false ks.isSome 0#8 0#32 (ksField ks)
  | .decodeDisc raw mode => packRequest 2#3 (modeBit mode) false raw 0#32 0#36
  | .decodeKeypad raw => packRequest 3#3 false false raw 0#32 0#36
  | .decodeAction raw => packRequest 4#3 false false raw 0#32 0#36
  | .expand ks radius => packRequest 5#3 false ks.isSome 0#8 radius (ksField ks)
  | .isReservedKeys ks => packRequest 6#3 false ks.isSome 0#8 0#32 (ksField ks)
  | .isReservedByte raw => packRequest 7#3 false false raw 0#32 0#36

end Sys2Proof
end

