-- ==== Sys2Proof/Config.lean ====
section
/-!
DEFINITION. What is fixed when a block is instantiated: the parameters a model takes as an argument (00_scope.md
R12, R13). Their defaults are `Params.default` in Machine/Tables.lean.
-/

namespace Sys2Proof

/-- The parameters of one instance of the block. They are plain data; no operation can read them other than through
its own rule, and none can change them (10_state.md R35). -/
structure Params where
  /-- GOLDEN_DECODE (R13, R141): `none` is the spec's default, the function of rule R140; `some t` is another table,
  entry `b` its answer for the raw value `b`. -/
  goldenDecode : Option (Vector KeySet 256)
  /-- RESERVED_BYTES (R13, R190): the raw bytes that are reserved, each once, in rising order. -/
  reservedBytes : List Byte
  /-- DECODE_DISC_ALL_MATCHES (R12): which disc mode the default DECODE uses. -/
  decodeDiscAllMatches : Bool
  /-- LATENCY (R13): time from request to response, in a unit the spec does not give; no rule reads it (R236). -/
  latency : Option Nat
  deriving DecidableEq, Repr

end Sys2Proof
end

