-- ==== Sys2Proof/Machine/Tables.lean ====
section
/-!
DEFINITION. The constant tables of 10_state.md R31 and the classification of keys (R21 to R26). A table is a constant
of the definition, not state (R31).
-/

namespace Sys2Proof.Machine

/-! ### The key vocabulary -/

/-- All 36 keys in the declared order (R21). -/
def allKeys : List Key :=
  ([.discN, .discNNE, .discNE, .discENE, .discE, .discESE, .discSE, .discSSE,
    .discS, .discSSW, .discSW, .discWSW, .discW, .discWNW, .discNW, .discNNW] : List Key) ++
  ([.keypad0, .keypad1, .keypad2, .keypad3, .keypad4, .keypad5, .keypad6, .keypad7, .keypad8, .keypad9,
    .keypadClear, .keypadEnter] : List Key) ++
  ([.actionKeyTop, .actionKeyBottomLeft, .actionKeyBottomRight] : List Key) ++
  ([.none, .noneActive, .discActive, .actionKeyActive, .keypadActive] : List Key)

/-- The index of a key, which is its bit in a key set (R21, R77). -/
def keyIndex : Key → Nat
  | .discN => 0 | .discNNE => 1 | .discNE => 2 | .discENE => 3
  | .discE => 4 | .discESE => 5 | .discSE => 6 | .discSSE => 7
  | .discS => 8 | .discSSW => 9 | .discSW => 10 | .discWSW => 11
  | .discW => 12 | .discWNW => 13 | .discNW => 14 | .discNNW => 15
  | .keypad0 => 16 | .keypad1 => 17 | .keypad2 => 18 | .keypad3 => 19 | .keypad4 => 20
  | .keypad5 => 21 | .keypad6 => 22 | .keypad7 => 23 | .keypad8 => 24 | .keypad9 => 25
  | .keypadClear => 26 | .keypadEnter => 27
  | .actionKeyTop => 28 | .actionKeyBottomLeft => 29 | .actionKeyBottomRight => 30
  | .none => 31 | .noneActive => 32 | .discActive => 33 | .actionKeyActive => 34 | .keypadActive => 35

/-- The family of a key: 16 Disc, 12 Keypad, 3 Action and 5 Marker values (R21). -/
def keyFamily (k : Key) : KeyFamily :=
  if keyIndex k < 16 then .disc
  else if keyIndex k < 28 then .keypad
  else if keyIndex k < 31 then .action
  else .marker

/-- `isDisc(k)` (R26). -/
def isDisc (k : Key) : Bool := keyFamily k == .disc

/-- `isKeypad(k)` (R26). -/
def isKeypad (k : Key) : Bool := keyFamily k == .keypad

/-- `isAction(k)` (R26). -/
def isAction (k : Key) : Bool := keyFamily k == .action

/-- `isMarker(k)` (R26). -/
def isMarker (k : Key) : Bool := keyFamily k == .marker

/-- `isReal(k) = not isMarker(k)` (R26). -/
def isReal (k : Key) : Bool := !isMarker k

/-- The 16 Disc values in ring order, N first (R22). -/
def discKeys : List Key := allKeys.filter isDisc

/-- REAL, the 31 real keys (R26). -/
def realKeys : List Key := allKeys.filter isReal

/-- `i mod 16`, in 0..15 also for negative `i` (R15). -/
def ringWrap (i : Int) : Nat := (i % 16).toNat

/-- `disc(i)`, the Disc value with ring index `i mod 16` (R22). -/
def disc (i : Int) : Key := discKeys.getD (ringWrap i) .discN

/-- `ring(d)`, which equals the index of a Disc value (R22). -/
def ring (d : Key) : Nat := keyIndex d

/-- The antipode of `d`, `disc(ring(d) + 8)` (R22). -/
def antipode (d : Key) : Key := disc ((ring d : Int) + 8)

/-! ### The code tables -/

/-- DISC_CODE in ring order, each code `FINE, NIB` (R72; ten codes are the spec's decision D6). -/
def discCodeTable : List (BitVec 5) :=
  [0x04#5, 0x14#5, 0x16#5, 0x06#5, 0x02#5, 0x12#5, 0x13#5, 0x03#5,
    0x01#5, 0x11#5, 0x19#5, 0x09#5, 0x08#5, 0x18#5, 0x1C#5, 0x0C#5]

/-- `DISC_CODE[d]` for a Disc value. -/
def discCode (d : Key) : BitVec 5 := discCodeTable.getD (ring d) 0#5

/-- KEYPAD_GRID: row line, column line and key (R74). -/
def keypadGrid : List (Nat × Nat × Key) :=
  [(0, 5, .keypad3), (0, 6, .keypad2), (0, 7, .keypad1),
    (1, 5, .keypad6), (1, 6, .keypad5), (1, 7, .keypad4),
    (2, 5, .keypad9), (2, 6, .keypad8), (2, 7, .keypad7),
    (3, 5, .keypadEnter), (3, 6, .keypad0), (3, 7, .keypadClear)]

/-- The key at a row line and a column line. -/
def keypadAt (row column : Nat) : Option Key :=
  (keypadGrid.find? fun e => e.1 == row && e.2.1 == column).map fun e => e.2.2

/-- The code of a grid entry, `(1 << column) | (1 << row)` (R74). -/
def gridCode (row column : Nat) : Byte := (1#8 <<< column) ||| (1#8 <<< row)

/-- The code of a Keypad value (R74). -/
def keypadCode (k : Key) : Byte :=
  match keypadGrid.find? fun e => e.2.2 == k with
  | some e => gridCode e.1 e.2.1
  | none => 0#8

/-- ACTION_CODE: Top bridges C7 and C5, BottomLeft C6 and C5, BottomRight C7 and C6 (R75). -/
def actionCode (k : Key) : Byte :=
  if k = .actionKeyTop then 0xA0#8
  else if k = .actionKeyBottomLeft then 0x60#8
  else if k = .actionKeyBottomRight then 0xC0#8
  else 0#8

/-- `code(k)`, the 8-bit pattern of a key; a Marker has none and adds nothing (R76). -/
def code (k : Key) : Byte :=
  match keyFamily k with
  | .disc => (discCode k).setWidth 8
  | .keypad => keypadCode k
  | .action => actionCode k
  | .marker => 0#8

/-- RESERVED_PAIRS (R30). IS_RESERVED_KEYS goes through the register value and not through this table (R191, C5). -/
def reservedPairs : List (Key × Key) := [(.keypad1, .keypad9), (.keypad3, .keypad7)]

/-- The idle sentinel, the encoding of an empty or absent key set (R143). -/
def idleSentinel : Byte := 0xFF#8

/-- RADIUS_MAX (R11). -/
def radiusMax : Nat := 7

/-- The ERR_CODE of InvalidArgument (R83, R210). -/
def errCodeInvalidArgument : BitVec 2 := 1#2

/-- The default parameters of R12 and R13: GOLDEN_DECODE is the function of R140, RESERVED_BYTES is {0xA5},
DECODE_DISC_ALL_MATCHES is false, and no LATENCY is assumed. -/
def defaultParams : Params :=
  { goldenDecode := none, reservedBytes := [0xA5#8], decodeDiscAllMatches := false, latency := none }

end Sys2Proof.Machine
end

