-- ==== Sys2Proof/Machine/State.lean ====
section
/-!
DEFINITION. The state: the parameters of the instance, the host's requests still to be issued, and the response
outputs (10_state.md R38). The block itself holds no mutable state (R20); its tables are constants of
Machine/Tables.lean (R31).
-/

namespace Sys2Proof.Machine

/-- The fields of the 48-bit response word (R83). -/
structure Response where
  /-- OUT_KS, the key-set result. -/
  outKs : KeySet
  /-- OUT_BYTE, the byte result. -/
  outByte : Byte
  /-- OUT_BOOL, the Boolean result. -/
  outBool : Bool
  /-- ERR: the operation raised an error. -/
  err : Bool
  /-- ERR_CODE: 0 = none, 1 = InvalidArgument. -/
  errCode : BitVec 2
  deriving DecidableEq, Repr

/-- The one error of the block (R210). It is the outcome of a request, held in the response, not a stop of the
machine. -/
inductive RequestError where
  /-- Raised by EXPAND on an absent key set (R211). -/
  | invalidArgument
  deriving DecidableEq, Repr

/-- Plain data. -/
structure State where
  /-- The parameters, fixed when the block is instantiated (R13, R35). -/
  params : Params
  /-- The model's own field: the request words the host has still to issue, in the host's order (R33); DESIGN CHOICE,
  log 1. -/
  requests : List RequestWord
  /-- The response outputs for the request taken last; `none` where no request was taken, because an output is "a
  function of the current request only" (R38) and nothing is kept between requests (R34). -/
  response : Option Response
  deriving DecidableEq, Repr

/-- Reasons for the machine to stop. There are none: every request gets a response (R237), and the one error is a
field of the response (R212, R216). Nothing raises a fault, so no claim about a run is cut short: safe. -/
inductive Fault
  deriving DecidableEq, Repr

/-- Reasons to give an operation no meaning. -/
inductive Refusal where
  /-- Raised by `exec` for an operation that has no meaning yet, named as the opcode table names it; no arm of this
  model answers so. Safe: nothing runs. -/
  | notModelled (mnemonic : String)
  deriving DecidableEq, Repr

/-- The machine right after reset: the default parameters (R38), nothing requested and so no response (R230, R231). -/
def State.reset : State :=
  { params := defaultParams, requests := [], response := none }

end Sys2Proof.Machine
end

