-- ==== Sys2Proof/Machine/Operands.lean ====
section
/-!
DEFINITION. Operand forms: key sets as 36-bit vectors (30_encoding.md R77), the bits of RAW (R70), one-hot fields
(00_scope.md R14) and the signed radius (R79).
-/

namespace Sys2Proof.Machine

/-! ### Key sets -/

/-- The set {k}. -/
def keyBit (k : Key) : KeySet := 1#36 <<< keyIndex k

/-- `k ∈ ks` (R77). -/
def hasKey (ks : KeySet) (k : Key) : Bool := ks.getLsbD (keyIndex k)

/-- The set that holds the keys of a list; order and repeats do not matter (R17). -/
def keySetOf : List Key → KeySet
  | [] => 0#36
  | k :: rest => keyBit k ||| keySetOf rest

/-- The real keys of a set, in the declared order (R17, R26). -/
def realKeysOf (ks : KeySet) : List Key := realKeys.filter (hasKey ks)

/-- The Disc values of a set, in ring order (R172). -/
def discKeysOf (ks : KeySet) : List Key := discKeys.filter (hasKey ks)

/-- KS[35:31], the Markers (R77). -/
def markerBits (ks : KeySet) : BitVec 5 := ks.extractLsb' 31 5

/-! ### The raw register -/

/-- NIB = RAW[3:0], the disc or row lines (R70). -/
def rawNib (raw : Byte) : BitVec 4 := raw.extractLsb' 0 4

/-- FINE = RAW[4] (R70). -/
def rawFine (raw : Byte) : Bool := raw.getLsbD 4

/-- COL = RAW[7:5], the column lines (R70). -/
def rawCol (raw : Byte) : BitVec 3 := raw.extractLsb' 5 3

/-- The indices of the bits of `v` that are 1, rising. -/
def setBits {n : Nat} (v : BitVec n) : List Nat := (List.range n).filter v.getLsbD

/-- `popcount(v)` (R14). -/
def popcount {n : Nat} (v : BitVec n) : Nat := (setBits v).length

/-- `onehot(v)` (R14). -/
def onehot {n : Nat} (v : BitVec n) : Bool := popcount v == 1

/-- The index of the set bit of a one-hot field. -/
def setBitIndex {n : Nat} (v : BitVec n) : Nat := (setBits v).headD 0

/-! ### The radius -/

/-- `sext_32(RADIUS)` (R79). -/
def radiusInt (radius : RadiusField) : Int := radius.toInt

end Sys2Proof.Machine
end

