-- ==== Sys2Proof/Machine/Flags.lean ====
section
/-!
DEFINITION. The response and its error status. The block has no status flags; "the only per-request status is the
error indication of the response" (10_state.md R34, 30_encoding.md R83, R84, 60_exceptions.md R212).
-/

namespace Sys2Proof.Machine

/-- A key-set result; the fields not used are 0 (R84). -/
def keysResponse (ks : KeySet) : Response :=
  { outKs := ks, outByte := 0#8, outBool := false, err := false, errCode := 0#2 }

/-- A byte result (R84). -/
def byteResponse (b : Byte) : Response :=
  { outKs := 0#36, outByte := b, outBool := false, err := false, errCode := 0#2 }

/-- A Boolean result (R84). -/
def boolResponse (b : Bool) : Response :=
  { outKs := 0#36, outByte := 0#8, outBool := b, err := false, errCode := 0#2 }

/-- The ERR_CODE of an error (R83). -/
def errCodeOf : RequestError → BitVec 2
  | .invalidArgument => errCodeInvalidArgument

/-- The response of an operation that raised an error: "OUT_KS, OUT_BYTE and OUT_BOOL are 0 and carry no result"
(R212). -/
def errorResponse (e : RequestError) : Response :=
  { outKs := 0#36, outByte := 0#8, outBool := false, err := true, errCode := errCodeOf e }

/-- The outcome of the request as R212 wants a model to report it: a fault, not a value, when ERR = 1. -/
def requestFault (r : Response) : Option RequestError :=
  if r.err then some .invalidArgument else none

/-- The 48-bit response word (R83). -/
def responseWord (r : Response) : ResponseWord :=
  r.outKs.setWidth 48 ||| r.outByte.setWidth 48 <<< 36 ||| (BitVec.ofBool r.outBool).setWidth 48 <<< 44 |||
    (BitVec.ofBool r.err).setWidth 48 <<< 45 ||| r.errCode.setWidth 48 <<< 46

end Sys2Proof.Machine
end

