-- ==== Sys2Proof/Machine/Ops.lean ====
section
/-!
DEFINITION. The operations the meanings and the step share: taking a request, driving a response, and raising the one
error (30_encoding.md R83, R84; 60_exceptions.md R210 to R217). There is no memory and no register to read or write
(R32, R50).
-/

namespace Sys2Proof.Machine

/-! ### Requests -/

/-- The host's next request, taken whole (R53), and the state with the rest still to be issued. -/
def takeRequest (s : State) : Option (RequestWord × State) :=
  match s.requests with
  | [] => none
  | w :: rest => some (w, { s with requests := rest })

/-- The state in which `w` is the host's next request. -/
def putRequest (w : RequestWord) (s : State) : State :=
  { s with requests := w :: s.requests }

/-- A step in which the host issues nothing: no request, so no response (DESIGN CHOICE, log 2). -/
def idle (s : State) : Host.Outcome State Fault Refusal :=
  .next { s with response := none }

/-! ### Responses -/

/-- End the operation with this response; nothing else changes (R54). -/
def respond (r : Response) (s : State) : Host.Outcome State Fault Refusal :=
  .next { s with response := some r }

/-- `return v` for a key set. -/
def returnKeys (ks : KeySet) (s : State) : Host.Outcome State Fault Refusal :=
  respond (keysResponse ks) s

/-- `return v` for a byte. -/
def returnByte (b : Byte) (s : State) : Host.Outcome State Fault Refusal :=
  respond (byteResponse b) s

/-- `return v` for a Boolean. -/
def returnBool (b : Bool) (s : State) : Host.Outcome State Fault Refusal :=
  respond (boolResponse b) s

/-- `raise e` (R16): the whole of taking an exception here. "An error saves no state, changes no mode or mask, and
transfers control nowhere; it is only the ERR and ERR_CODE fields of the response" (R216). There is no return from it,
"because nothing is entered" (R217): the next step serves the next request. The request's outcome is a fault
(`requestFault`), and the machine goes on (log 3). -/
def raise (e : RequestError) (s : State) : Host.Outcome State Fault Refusal :=
  respond (errorResponse e) s

end Sys2Proof.Machine
end

