-- ==== Sys2Proof/Machine/Compass.lean ====
section
/-!
DEFINITION. The compass decoder and its operation DECODE_DISC (41_compass_decoder.md R100 to R105, 30_encoding.md R71,
R73).
-/

namespace Sys2Proof.Machine

/-- `CI(c)`, the ring index of the cardinal on line `c`: S, E, N, W on lines 0, 1, 2, 3 (R73). -/
def cardinalIndex (c : Nat) : Int :=
  match c with
  | 0 => 8
  | 1 => 4
  | 2 => 0
  | _ => 12

/-- The four adjacent pairs in the form (a, b), b's cardinal 4 steps clockwise of a's: N-E, E-S, S-W, W-N (R71,
R73). -/
def adjacentPairs : List (Nat × Nat) := [(2, 1), (1, 0), (0, 3), (3, 2)]

/-- `singleDir(c, fine)` (R73). -/
def singleDir (c : Nat) (fine : Bool) : Key :=
  if fine then disc (cardinalIndex c + 1) else disc (cardinalIndex c)

/-- `pairDir({a, b}, fine)` (R73). -/
def pairDir (p : Nat × Nat) (fine : Bool) : Key :=
  if fine then disc (cardinalIndex p.1 + 2) else disc (cardinalIndex p.2 - 1)

/-- `LINES(b)` (R101). -/
def linesOf (raw : Byte) : List Nat := setBits (rawNib raw)

/-- `PAIRS(b)` (R101). -/
def pairsOf (raw : Byte) : List (Nat × Nat) :=
  adjacentPairs.filter fun p => (linesOf raw).contains p.1 && (linesOf raw).contains p.2

/-- `covered(c, b)` (R101). -/
def covered (c : Nat) (raw : Byte) : Bool :=
  (pairsOf raw).any fun p => p.1 == c || p.2 == c

/-- The directions of the present pairs. -/
def pairDirs (raw : Byte) : List Key :=
  (pairsOf raw).map fun p => pairDir p (rawFine raw)

/-- The directions of some lines. -/
def singleDirs (lines : List Nat) (raw : Byte) : List Key :=
  lines.map fun c => singleDir c (rawFine raw)

/-- `PM(b)`, the partial-match set (R102). -/
def partialMatchSet (raw : Byte) : KeySet :=
  keySetOf (pairDirs raw) ||| keySetOf (singleDirs ((linesOf raw).filter fun c => !covered c raw) raw)

/-- `AM(b)`, the all-matches set (R103). -/
def allMatchesSet (raw : Byte) : KeySet :=
  keySetOf (pairDirs raw) ||| keySetOf (singleDirs (linesOf raw) raw)

/-- The disc directions in RAW (R104). -/
def discSet (raw : Byte) (mode : DiscMode) : KeySet :=
  if rawNib raw = 0#4 then 0#36
  else
    match mode with
    | .partialMatch => partialMatchSet raw
    | .allMatches => allMatchesSet raw

/-- DECODE_DISC (R104). -/
def execDecodeDisc (raw : Byte) (mode : DiscMode) (s : State) : Host.Outcome State Fault Refusal :=
  returnKeys (discSet raw mode) s

end Sys2Proof.Machine
end

