-- ==== Sys2Proof/Machine/KeypadAction.lean ====
section
/-!
DEFINITION. The keypad and action-button decoder and its operations DECODE_KEYPAD and DECODE_ACTION
(42_keypad_action_decoder.md R120, R121).
-/

namespace Sys2Proof.Machine

/-- The keypad key in RAW, if any: a one-hot row and a one-hot column select it (R120). -/
def keypadKey (raw : Byte) : Option Key :=
  if onehot (rawNib raw) && onehot (rawCol raw) then
    keypadAt (setBitIndex (rawNib raw)) (5 + setBitIndex (rawCol raw))
  else none

/-- The result of DECODE_KEYPAD as a set of at most one key (R120). -/
def keypadSet (raw : Byte) : KeySet :=
  match keypadKey raw with
  | some k => keyBit k
  | none => 0#36

/-- The action buttons in RAW[7:5] (R121). -/
def actionSet (raw : Byte) : KeySet :=
  if rawCol raw = 0b101#3 then keySetOf [.actionKeyTop]
  else if rawCol raw = 0b011#3 then keySetOf [.actionKeyBottomLeft]
  else if rawCol raw = 0b110#3 then keySetOf [.actionKeyBottomRight]
  else if rawCol raw = 0b111#3 then keySetOf [.actionKeyTop, .actionKeyBottomLeft, .actionKeyBottomRight]
  else 0#36

/-- DECODE_KEYPAD (R120). -/
def execDecodeKeypad (raw : Byte) (s : State) : Host.Outcome State Fault Refusal :=
  returnKeys (keypadSet raw) s

/-- DECODE_ACTION (R121). -/
def execDecodeAction (raw : Byte) (s : State) : Host.Outcome State Fault Refusal :=
  returnKeys (actionSet raw) s

end Sys2Proof.Machine
end

