-- ==== Sys2Proof/Machine/Codec.lean ====
section
/-!
DEFINITION. The codec: DECODE with the parameter GOLDEN_DECODE, and ENCODE, the register encoder (43_codec.md R140 to
R144).
-/

namespace Sys2Proof.Machine

/-- The disc mode the default DECODE uses: `m = if DECODE_DISC_ALL_MATCHES then 1 else 0` (R140). -/
def decodeDiscMode (allMatches : Bool) : DiscMode :=
  if allMatches then .allMatches else .partialMatch

/-- Rule R140, the default of GOLDEN_DECODE: a keypad key owns the row line and is returned alone; otherwise the disc
directions and the action buttons. -/
def composedDecode (allMatches : Bool) (raw : Byte) : KeySet :=
  if keypadSet raw ≠ 0#36 then keypadSet raw
  else discSet raw (decodeDiscMode allMatches) ||| actionSet raw

/-- GOLDEN_DECODE of an instance of the block: its own table if it was given one, else the default (R141). -/
def goldenDecode (p : Params) (raw : Byte) : KeySet :=
  match p.goldenDecode with
  | some t => t[raw.toNat]'(raw.isLt)
  | none => composedDecode p.decodeDiscAllMatches raw

/-- The patterns of some keys, ORed (R142). -/
def orCodes : List Key → Byte
  | [] => 0#8
  | k :: rest => code k ||| orCodes rest

/-- The register value of a key set: the OR of the patterns of its real keys, and the idle sentinel where it has none
(R142, R143). -/
def registerValue (ks : KeySet) : Byte :=
  if (realKeysOf ks).isEmpty then idleSentinel else orCodes (realKeysOf ks)

/-- The register value of a key-set operand; an absent set gives the idle sentinel (R142, R143). -/
def encodeKeys : Option KeySet → Byte
  | none => idleSentinel
  | some ks => registerValue ks

/-- DECODE (R140, R141). -/
def execDecode (raw : Byte) (s : State) : Host.Outcome State Fault Refusal :=
  returnKeys (goldenDecode s.params raw) s

/-- ENCODE (R142). -/
def execEncode (ks : Option KeySet) (s : State) : Host.Outcome State Fault Refusal :=
  returnByte (encodeKeys ks) s

end Sys2Proof.Machine
end

