-- ==== Sys2Proof/Machine/Reserved.lean ====
section
/-!
DEFINITION. The reserved-combination detector and its operations IS_RESERVED_BYTE and IS_RESERVED_KEYS
(45_reserved_detector.md R190, R191).
-/

namespace Sys2Proof.Machine

/-- Whether a raw value is in RESERVED_BYTES (R190). -/
def byteReserved (p : Params) (raw : Byte) : Bool := p.reservedBytes.contains raw

/-- Whether a key-set operand is a reserved combination: "the set is reserved exactly when the register value it
produces is a reserved byte"; an absent set gives false (R191). -/
def keysReserved (p : Params) : Option KeySet → Bool
  | none => false
  | some ks => byteReserved p (encodeKeys (some ks))

/-- IS_RESERVED_KEYS (R191). -/
def execIsReservedKeys (ks : Option KeySet) (s : State) : Host.Outcome State Fault Refusal :=
  returnBool (keysReserved s.params ks) s

/-- IS_RESERVED_BYTE (R190). -/
def execIsReservedByte (raw : Byte) (s : State) : Host.Outcome State Fault Refusal :=
  returnBool (byteReserved s.params raw) s

end Sys2Proof.Machine
end

