-- ==== Sys2Proof/Machine/Sensitivity.lean ====
section
/-!
DEFINITION. The sensitivity expander and its operation EXPAND (44_sensitivity_expander.md R170 to R172, and the error of
60_exceptions.md R211).
-/

namespace Sys2Proof.Machine

/-- `reff(RADIUS) = min(abs(sext_32(RADIUS)), 7)`, exact also at -2^31 (R170). -/
def effectiveRadius (radius : RadiusField) : Nat := min (radiusInt radius).natAbs radiusMax

/-- The offsets `-r .. r` (R171). -/
def ringOffsets (r : Nat) : List Int := (List.range (2 * r + 1)).map fun (j : Nat) => (j : Int) - (r : Int)

/-- The directions within `r` ring steps of `d` (R171). -/
def sector (r : Nat) (d : Key) : List Key := (ringOffsets r).map fun k => disc ((ring d : Int) + k)

/-- The union of the sectors of the nominal directions; keys of the other families are ignored (R171). -/
def expandSet (ks : KeySet) (radius : RadiusField) : KeySet :=
  keySetOf ((discKeysOf ks).flatMap (sector (effectiveRadius radius)))

/-- EXPAND (R171); an absent key set raises InvalidArgument (R211). -/
def execExpand (ks : Option KeySet) (radius : RadiusField) (s : State) : Host.Outcome State Fault Refusal :=
  match ks with
  | none => raise .invalidArgument s
  | some nominal => returnKeys (expandSet nominal radius) s

end Sys2Proof.Machine
end

