-- ==== Sys2Proof/Machine/Dispatch.lean ====
section
/-!
DEFINITION. One arm per operation of 30_encoding.md R82, each one call of its meaning.
-/

namespace Sys2Proof.Machine

/-- The meaning of one operation. -/
def exec (i : Instr) (s : State) : Host.Outcome State Fault Refusal :=
  match i with
  | .decode raw => Sys2Proof.Machine.execDecode raw s
  | .encode ks => Sys2Proof.Machine.execEncode ks s
  | .decodeDisc raw mode => Sys2Proof.Machine.execDecodeDisc raw mode s
  | .decodeKeypad raw => Sys2Proof.Machine.execDecodeKeypad raw s
  | .decodeAction raw => Sys2Proof.Machine.execDecodeAction raw s
  | .expand ks radius => Sys2Proof.Machine.execExpand ks radius s
  | .isReservedKeys ks => Sys2Proof.Machine.execIsReservedKeys ks s
  | .isReservedByte raw => Sys2Proof.Machine.execIsReservedByte raw s

end Sys2Proof.Machine
end

