-- ==== Sys2Proof/Machine/Step.lean ====
section
/-!
DEFINITION. One step: the host's next request is taken and served (70_reset_and_hazards.md R237, "one step from request
to response").
-/

namespace Sys2Proof.Machine

/-- Take the host's next request, decode it and run it; where the host issues none, the block idles. -/
def step (s : State) : Host.Outcome State Fault Refusal :=
  match takeRequest s with
  | none => idle s
  | some (w, s') => exec (decode w) s'

/-- `s` with this word, bits above `nbits` zero, as the request the very next step takes: the host issues it before
its other requests (log 1). -/
def State.withFetchWord (s : State) (nbits w : Nat) : State :=
  putRequest (requestOfTableWord nbits w) s

end Sys2Proof.Machine
end

