-- ==== Sys2Proof/Safety.lean ====
section
/-!
DEFINITION. What claims are stated in: what a parameter value must meet (43_codec.md R141, 45_reserved_detector.md
R192), what a response word may hold (30_encoding.md R83 to R85), the invariant of a step, and how a host's sequence of
requests is served.
-/

namespace Sys2Proof.Machine

/-! ### What any parameter value must meet -/

/-- P1 of R141: every entry of GOLDEN_DECODE is a set of real keys. -/
abbrev goldenMarkerFree (p : Params) : Prop :=
  ∀ raw : Byte, markerBits (goldenDecode p raw) = 0#5

/-- P2 of R141: the literal points. -/
abbrev goldenLiterals (p : Params) : Prop :=
  hasKey (goldenDecode p 0x01#8) .discS = true ∧
    goldenDecode p 0x81#8 = keySetOf [.keypad1] ∧
    goldenDecode p 0xA0#8 = keySetOf [.actionKeyTop] ∧
    goldenDecode p 0xE0#8 = keySetOf [.actionKeyTop, .actionKeyBottomLeft, .actionKeyBottomRight]

/-- P3 of R141: the key-based detector agrees with the byte-based one on every decode result. -/
abbrev goldenAgreesWithDetector (p : Params) : Prop :=
  ∀ raw : Byte, keysReserved p (some (goldenDecode p raw)) = byteReserved p raw

/-- P4 of R141: GOLDEN_DECODE is not injective. -/
abbrev goldenNotInjective (p : Params) : Prop :=
  ∃ b b' : Byte, b ≠ b' ∧ goldenDecode p b = goldenDecode p b'

/-- The oracle entries of R192. -/
abbrev oracleEntries (p : Params) : Prop :=
  keysReserved p (some (keySetOf [.keypad1, .keypad9])) = true ∧
    keysReserved p (some (keySetOf [.keypad1, .keypad9, .actionKeyTop])) = true ∧
    keysReserved p (some (keySetOf [.keypad1, .keypad9, .actionKeyBottomRight])) = false ∧
    keysReserved p (some (keySetOf [.keypad3, .keypad7])) = true ∧
    byteReserved p 0xA5#8 = true ∧ byteReserved p 0xA7#8 = false ∧ byteReserved p 0x00#8 = false ∧
    byteReserved p 0xFF#8 = false ∧ byteReserved p 0xC5#8 = false ∧ byteReserved p 0xC7#8 = false

/-- RESERVED_BYTES is held in its one canonical form, strictly rising. -/
abbrev reservedCanonical (p : Params) : Prop :=
  p.reservedBytes.Pairwise fun a b => a.toNat < b.toNat

/-- Every constraint the spec puts on the open parameters (R13, R141, R192). -/
structure ParamsLegal (p : Params) : Prop where
  markerFree : goldenMarkerFree p
  literals : goldenLiterals p
  agrees : goldenAgreesWithDetector p
  notInjective : goldenNotInjective p
  oracle : oracleEntries p
  canonical : reservedCanonical p

/-! ### Responses -/

/-- What a response may hold: no Marker in OUT_KS (R25), ERR_CODE 1 exactly with ERR (R83, R84), never 2 or 3 (R85), and
no result beside an error (R212). -/
structure ResponseLegal (r : Response) : Prop where
  noMarker : markerBits r.outKs = 0#5
  codeWithoutError : r.err = false → r.errCode = 0#2
  codeWithError : r.err = true → r.errCode = errCodeInvalidArgument
  noResultWithError : r.err = true → r.outKs = 0#36 ∧ r.outByte = 0#8 ∧ r.outBool = false

/-- The invariant of a step: the parameters are legal and so is the response. -/
structure Inv (s : State) : Prop where
  params : ParamsLegal s.params
  response : ∀ r, s.response = some r → ResponseLegal r

/-! ### Serving a host's requests -/

/-- The responses of the next `n` steps. -/
def serve : Nat → State → List (Option Response)
  | 0, _ => []
  | n + 1, s =>
    match step s with
    | .next t => t.response :: serve n t
    | .fault _ => []
    | .refused _ => []

/-- The response a block with parameters `p`, otherwise as after reset, gives to one request alone. -/
def responseAlone (p : Params) (w : RequestWord) : Option Response :=
  match step { State.reset with params := p, requests := [w] } with
  | .next t => t.response
  | .fault _ => none
  | .refused _ => none

end Sys2Proof.Machine
end

