-- ==== Sys2Proof/Certificates/Slice0/Obligations.lean ====
section
/-!
DEFINITION. The statements for the provers, one `def Obligations.<Name> : Prop` each, and the few literal tables they
are stated with, copied from the spec's own tables.
A response is written with its fields in the order OUT_KS, OUT_BYTE, OUT_BOOL, ERR, ERR_CODE (30_encoding.md R83).
An equation `exec i s = .next (… with response := some r)` is also the frame: parameters and pending requests stay.
-/

open Sys2Proof Sys2Proof.Machine

/-! ### Literal tables of the spec -/

/-- The request bits an operation reads, by OP (R82, R84): OP and RAW; OP, KS_PRESENT and KS; OP, MODE and RAW; and so
on. KS counts only where KS_PRESENT = 1 (R78). -/
def Sys2Proof.Statements.bitsRead (w : RequestWord) : RequestWord :=
  let ks : RequestWord := if w.getLsbD 4 then 0xFFFFFFFFF000000000000#84 else 0#84
  if w.toNat % 8 = 1 ∨ w.toNat % 8 = 6 then 0x17#84 ||| ks
  else if w.toNat % 8 = 2 then 0xFF0F#84
  else if w.toNat % 8 = 5 then 0xFFFFFFFF0017#84 ||| ks
  else 0xFF07#84

/-- `d` is a candidate direction of the raw value: its code has RAW's fine bit and its nibble is not empty and lies
inside RAW[3:0] (R100, R103). -/
def Sys2Proof.Statements.candidate (raw : Byte) (d : Key) : Prop :=
  isDisc d = true ∧ (discCode d).getLsbD 4 = raw.getLsbD 4 ∧ (discCode d).setWidth 4 ≠ 0#4 ∧
    (discCode d).setWidth 4 &&& ~~~(raw.setWidth 4) = 0#4

/-- The columns "MODE = 0 (partial)" and "MODE = 1 (all)" of the table of R105 for RAW[4:0] = 0x00 to 0x0F. -/
def Sys2Proof.Statements.coarseDiscRows : List (List Key × List Key) :=
  ([([], []), ([.discS], [.discS]), ([.discE], [.discE]), ([.discSSE], [.discE, .discSSE, .discS]),
    ([.discN], [.discN]), ([.discN, .discS], [.discN, .discS]), ([.discENE], [.discN, .discENE, .discE]),
    ([.discENE, .discSSE], [.discN, .discENE, .discE, .discSSE, .discS])] : List (List Key × List Key)) ++
  ([([.discW], [.discW]), ([.discWSW], [.discS, .discWSW, .discW]), ([.discE, .discW], [.discE, .discW]),
    ([.discSSE, .discWSW], [.discE, .discSSE, .discS, .discWSW, .discW]),
    ([.discNNW], [.discN, .discW, .discNNW]),
    ([.discWSW, .discNNW], [.discN, .discS, .discWSW, .discW, .discNNW]),
    ([.discENE, .discNNW], [.discN, .discENE, .discE, .discW, .discNNW]),
    ([.discENE, .discSSE, .discWSW, .discNNW],
      [.discN, .discENE, .discE, .discSSE, .discS, .discWSW, .discW, .discNNW])] : List (List Key × List Key))

/-- The same columns for RAW[4:0] = 0x10 to 0x1F. -/
def Sys2Proof.Statements.fineDiscRows : List (List Key × List Key) :=
  ([([], []), ([.discSSW], [.discSSW]), ([.discESE], [.discESE]), ([.discSE], [.discESE, .discSE, .discSSW]),
    ([.discNNE], [.discNNE]), ([.discNNE, .discSSW], [.discNNE, .discSSW]),
    ([.discNE], [.discNNE, .discNE, .discESE]),
    ([.discNE, .discSE], [.discNNE, .discNE, .discESE, .discSE, .discSSW])] : List (List Key × List Key)) ++
  ([([.discWNW], [.discWNW]), ([.discSW], [.discSSW, .discSW, .discWNW]),
    ([.discESE, .discWNW], [.discESE, .discWNW]),
    ([.discSE, .discSW], [.discESE, .discSE, .discSSW, .discSW, .discWNW]),
    ([.discNW], [.discNNE, .discWNW, .discNW]),
    ([.discSW, .discNW], [.discNNE, .discSSW, .discSW, .discWNW, .discNW]),
    ([.discNE, .discNW], [.discNNE, .discNE, .discESE, .discWNW, .discNW]),
    ([.discNE, .discSE, .discSW, .discNW],
      [.discNNE, .discNE, .discESE, .discSE, .discSSW, .discSW, .discWNW, .discNW])] : List (List Key × List Key))

/-- The grid of R74 as (the row bit pattern, the column bit pattern, the key). -/
def Sys2Proof.Statements.gridRows : List (BitVec 4 × BitVec 3 × Key) :=
  [(1#4, 1#3, .keypad3), (1#4, 2#3, .keypad2), (1#4, 4#3, .keypad1),
    (2#4, 1#3, .keypad6), (2#4, 2#3, .keypad5), (2#4, 4#3, .keypad4),
    (4#4, 1#3, .keypad9), (4#4, 2#3, .keypad8), (4#4, 4#3, .keypad7),
    (8#4, 1#3, .keypadEnter), (8#4, 2#3, .keypad0), (8#4, 4#3, .keypadClear)]

/-- The codes of the 31 real keys as R72, R74 and R75 print them, in the order of R21. -/
def Sys2Proof.Statements.printedCodes : List Byte :=
  [0x04#8, 0x14#8, 0x16#8, 0x06#8, 0x02#8, 0x12#8, 0x13#8, 0x03#8,
    0x01#8, 0x11#8, 0x19#8, 0x09#8, 0x08#8, 0x18#8, 0x1C#8, 0x0C#8] ++
  [0x48#8, 0x81#8, 0x41#8, 0x21#8, 0x82#8, 0x42#8, 0x22#8, 0x84#8, 0x44#8, 0x24#8, 0x88#8, 0x28#8] ++
  [0xA0#8, 0x60#8, 0xC0#8]

/-- The seven keys whose patterns lie inside 0xA5 (R193). -/
def Sys2Proof.Statements.sevenKeys : List Key :=
  [.discN, .discS, .keypad1, .keypad3, .keypad7, .keypad9, .actionKeyTop]

/-- The minimal reserved sets of R193. -/
def Sys2Proof.Statements.minimalReservedSets : List (List Key) :=
  [[.keypad1, .keypad9], [.keypad3, .keypad7], [.discN, .discS, .actionKeyTop],
    [.discN, .keypad1, .keypad3], [.discN, .keypad1, .actionKeyTop], [.discN, .keypad3, .actionKeyTop],
    [.discS, .keypad7, .keypad9], [.discS, .keypad7, .actionKeyTop], [.discS, .keypad9, .actionKeyTop],
    [.keypad1, .keypad7, .actionKeyTop], [.keypad3, .keypad9, .actionKeyTop]]

/-- The 36 key names in the order of the table of R21, which counts them from index 0 to 35. -/
def Sys2Proof.Statements.printedKeys : List Key :=
  ([.discN, .discNNE, .discNE, .discENE, .discE, .discESE, .discSE, .discSSE] : List Key) ++
  ([.discS, .discSSW, .discSW, .discWSW, .discW, .discWNW, .discNW, .discNNW] : List Key) ++
  ([.keypad0, .keypad1, .keypad2, .keypad3, .keypad4, .keypad5] : List Key) ++
  ([.keypad6, .keypad7, .keypad8, .keypad9, .keypadClear, .keypadEnter] : List Key) ++
  ([.actionKeyTop, .actionKeyBottomLeft, .actionKeyBottomRight] : List Key) ++
  ([.none, .noneActive, .discActive, .actionKeyActive, .keypadActive] : List Key)

/-- OUT_BYTE of ENCODE run on the key set DECODE answers for a byte, in the state DECODE leaves; `none` if either
operation did not complete with a response. The host carries the key set over (R87). -/
def Sys2Proof.Statements.reencoded (s : State) (raw : Byte) : Option Byte :=
  match exec (.decode raw) s with
  | .next t =>
    match t.response.map fun r => exec (.encode (some r.outKs)) t with
    | some (.next u) => u.response.map Response.outByte
    | _ => none
  | _ => none

open Sys2Proof.Statements

/-! ### Reset, tables and the vocabulary -/

/-- After reset the parameters have the spec's defaults (R12, R13, R38); that there is then no pending request and no
response is the model's choice (log 1, log 2). -/
def Obligations.ResetLeavesDefaultsAndNoResponse : Prop :=
  State.reset.params.goldenDecode = none ∧ State.reset.params.reservedBytes = [0xA5#8] ∧
    State.reset.params.decodeDiscAllMatches = false ∧ State.reset.params.latency = none ∧
    State.reset.requests = [] ∧ State.reset.response = none

/-- Each named key has its printed index, which is its bit in a key set (R21, R77; the spec's decision D4, log 16); the
key codes are the printed ones (ten disc codes: the spec's decision D6, log 10), a Marker has none (D11, log 12), and the
reserved pairs are the two of R30. -/
def Obligations.TablesHoldThePrintedEntries : Prop :=
  allKeys = printedKeys ∧ printedKeys.map keyIndex = List.range 36 ∧
    (∀ (ks : KeySet) (k : Key), hasKey ks k = ks.getLsbD (keyIndex k)) ∧
    (∀ k : Key, keySetOf [k] = 1#36 <<< keyIndex k) ∧
    realKeys.map code = printedCodes ∧ (∀ k : Key, isMarker k = true → code k = 0#8) ∧
    reservedPairs = [(.keypad1, .keypad9), (.keypad3, .keypad7)]

/-- R26: each predicate is total and true exactly on its family of R21, `isReal` is `not isMarker`, and REAL is the 31
real keys. -/
def Obligations.ClassificationFollowsTheIndex : Prop :=
  (∀ k : Key, (isDisc k = true ↔ keyIndex k ≤ 15) ∧ (isKeypad k = true ↔ 16 ≤ keyIndex k ∧ keyIndex k ≤ 27) ∧
      (isAction k = true ↔ 28 ≤ keyIndex k ∧ keyIndex k ≤ 30) ∧
      (isMarker k = true ↔ 31 ≤ keyIndex k ∧ keyIndex k ≤ 35) ∧ (isReal k = true ↔ ¬ isMarker k = true) ∧
      (k ∈ realKeys ↔ isReal k = true)) ∧
    realKeys.length = 31

/-- R22: the ring of the 16 Disc values, `ring`, `disc` for every integer, and the antipode. -/
def Obligations.DiscRingIsCyclic : Prop :=
  discKeys = [.discN, .discNNE, .discNE, .discENE, .discE, .discESE, .discSE, .discSSE,
      .discS, .discSSW, .discSW, .discWSW, .discW, .discWNW, .discNW, .discNNW] ∧
    (∀ i : Int, isDisc (disc i) = true ∧ (ring (disc i) : Int) = i % 16) ∧
    (∀ d : Key, isDisc d = true → ring d = keyIndex d ∧ disc (ring d : Int) = d ∧ antipode d = disc ((ring d : Int) + 8))

/-- R73: a single line's code is the code of its single direction and an adjacent pair's code that of its pair direction,
with and without FINE (the entries rest on the spec's decision D6, log 10). -/
def Obligations.DiscCodesFollowTheStructuralRule : Prop :=
  (∀ (c : Fin 4) (fine : Bool), discCode (singleDir c.val fine) = BitVec.ofBool fine ++ (1#4 <<< c.val)) ∧
    ∀ p ∈ [(2, 1), (1, 0), (0, 3), (3, 2)], ∀ fine : Bool,
      discCode (pairDir p fine) = BitVec.ofBool fine ++ ((1#4 <<< p.1) ||| (1#4 <<< p.2))

/-! ### The invariant and the step -/

/-- The invariant of `Inv` holds at reset. -/
def Obligations.ResetMeetsTheInvariant : Prop := Inv State.reset

/-- Every step keeps the invariant: parameters legal (R141, R192), no Marker in OUT_KS (R25), ERR and ERR_CODE agree
(R83 to R85), no result beside an error (R212). -/
def Obligations.StepKeepsTheInvariant : Prop :=
  ∀ s t : State, Inv s → step s = .next t → Inv t

/-- The frame of a step: the parameters stay (R35) and exactly the request taken leaves the host's list (log 1). -/
def Obligations.StepFrame : Prop :=
  ∀ s t : State, step s = .next t → t.params = s.params ∧ t.requests = s.requests.tail

/-- A step runs the operation the next request decodes to, the request taken off the host's list (the list is the
model's choice, log 1). -/
def Obligations.StepRunsTheDecodedRequest : Prop :=
  ∀ (s : State) (w : RequestWord) (rest : List RequestWord), s.requests = w :: rest →
    step s = exec (Sys2Proof.decode w) { s with requests := rest }

/-- A step without a request changes nothing and leaves no response (the model's choice, log 2). -/
def Obligations.StepWithoutRequestIdles : Prop :=
  ∀ s : State, s.requests = [] → step s = .next { s with response := none }

/-- The word placed by `withFetchWord` is the one the very next step runs (the model's choice, log 1). -/
def Obligations.PlacedWordRunsNext : Prop :=
  ∀ (s : State) (nbits w : Nat) (i : Instr), decodeTableWord nbits w = some i →
    step (s.withFetchWord nbits w) = exec i s

/-- R237: every request gets a response in one step, and a host's whole list of requests is served in as many steps. -/
def Obligations.EveryRequestGetsAResponse : Prop :=
  (∀ (s : State) (w : RequestWord) (rest : List RequestWord), s.requests = w :: rest →
      ∃ r : Response, step s = .next { s with requests := rest, response := some r }) ∧
    ∀ s : State, ∃ t : State, Sys2Proof.core.run s.requests.length s = .next t ∧ t.requests = [] ∧ t.params = s.params

/-- R54: what a request leaves behind no later request can see, and a repeated request gets the same response. -/
def Obligations.RequestsHaveNoSideEffect : Prop :=
  ∀ (s : State) (w w' : RequestWord) (rest : List RequestWord),
    ∃ t u : State, step { s with requests := w :: w' :: rest } = .next t ∧ step t = .next u ∧
      step { s with requests := w' :: rest } = .next u ∧ (w = w' → u.response = t.response)

/-- R231: blocks with the same parameters give one request the same response, whatever they did before and whatever
comes after. -/
def Obligations.ResponseDependsOnTheRequestAlone : Prop :=
  ∀ (s s' : State) (w : RequestWord) (rest rest' : List RequestWord), s.params = s'.params →
    s.requests = w :: rest → s'.requests = w :: rest' →
    ∃ r : Response, step s = .next { s with requests := rest, response := some r } ∧
      step s' = .next { s' with requests := rest', response := some r }

/-- R20, for each of the eight operations: it changes no state of the block, only drives the response, and the response
is a function of its operands and the constants of the instance. -/
def Obligations.OperationsArePureFunctions : Prop :=
  ∀ (i : Instr) (s : State), ∃ r : Response, exec i s = .next { s with response := some r } ∧
    ∀ s' : State, s'.params = s.params → exec i s' = .next { s' with response := some r }

/-- No operation reads LATENCY (R13, R236). -/
def Obligations.LatencyIsNeverRead : Prop :=
  ∀ (i : Instr) (s : State) (l : Option Nat), ∃ r : Response, exec i s = .next { s with response := some r } ∧
    exec i { s with params := { s.params with latency := l } } =
      .next { s with params := { s.params with latency := l }, response := some r }

/-- R56: each request of a sequence gets the response it would get alone, so reordering the requests only reorders the
responses (the spec's decision D20; one request a step is the model's choice, log 9). -/
def Obligations.RequestsAreServedIndependently : Prop :=
  (∀ s : State, serve s.requests.length s = s.requests.map (responseAlone s.params)) ∧
    ∀ (p : Params) (ws ws' : List RequestWord), ws.Perm ws' →
      (ws.zip (serve ws.length { State.reset with params := p, requests := ws })).Perm
        (ws'.zip (serve ws'.length { State.reset with params := p, requests := ws' }))

/-! ### Encodings -/

/-- Decoding the request word of an operation gives it back, every operand at every value. -/
def Obligations.DecodeOfEncodeIsIdentity : Prop :=
  ∀ i : Instr, Sys2Proof.decode (Sys2Proof.encode i) = i ∧ decodeBits (Sys2Proof.encode i).toNat = .ok i

/-- Encoding what a word decodes to gives the word back with the bits the operation does not read cleared. -/
def Obligations.EncodeOfDecodeKeepsTheBitsRead : Prop :=
  ∀ w : RequestWord, Sys2Proof.encode (Sys2Proof.decode w) = w &&& bitsRead w

/-- Bits an operation does not read, the reserved bits 7:5 among them, do not change the outcome of a step (R84, R85; the
spec's decision D3, log 16). -/
def Obligations.UnreadRequestBitsAreIgnored : Prop :=
  ∀ (s : State) (w w' : RequestWord) (rest : List RequestWord), w &&& bitsRead w = w' &&& bitsRead w' →
    ∃ t : State, step { s with requests := w :: rest } = .next t ∧ step { s with requests := w' :: rest } = .next t

/-- Each OP value names its operation, with its operands at the bit positions of R81 (the spec's decision D3, log 16). -/
def Obligations.EveryOpValueNamesItsOperation : Prop :=
  ∀ w : RequestWord,
    let raw : Byte := BitVec.ofNat 8 (w.toNat / 2 ^ 8)
    let radius : RadiusField := BitVec.ofNat 32 (w.toNat / 2 ^ 16)
    let ks : Option KeySet := if w.toNat / 2 ^ 4 % 2 = 1 then some (BitVec.ofNat 36 (w.toNat / 2 ^ 48)) else none
    let mode : DiscMode := if w.toNat / 2 ^ 3 % 2 = 1 then .allMatches else .partialMatch
    (w.toNat % 8 = 0 → Sys2Proof.decode w = .decode raw) ∧ (w.toNat % 8 = 1 → Sys2Proof.decode w = .encode ks) ∧
      (w.toNat % 8 = 2 → Sys2Proof.decode w = .decodeDisc raw mode) ∧
      (w.toNat % 8 = 3 → Sys2Proof.decode w = .decodeKeypad raw) ∧
      (w.toNat % 8 = 4 → Sys2Proof.decode w = .decodeAction raw) ∧
      (w.toNat % 8 = 5 → Sys2Proof.decode w = .expand ks radius) ∧
      (w.toNat % 8 = 6 → Sys2Proof.decode w = .isReservedKeys ks) ∧
      (w.toNat % 8 = 7 → Sys2Proof.decode w = .isReservedByte raw)

/-- Request words of 95_test_vectors.md, one for each operation and both forms of a key-set operand, decode to the
request printed beside them. -/
def Obligations.PrintedRequestWordsDecode : Prop :=
  Sys2Proof.decode 0x00000000000000000A500#84 = .decode 0xA5#8 ∧
    Sys2Proof.decode 0x024000100000000000011#84 =
      .encode (some (keySetOf [.discS, .keypadClear, .actionKeyBottomLeft])) ∧
    Sys2Proof.decode 0x000000000000000000001#84 = .encode none ∧
    Sys2Proof.decode 0x00000000000000000160A#84 = .decodeDisc 0x16#8 .allMatches ∧
    Sys2Proof.decode 0x000000000000000004803#84 = .decodeKeypad 0x48#8 ∧
    Sys2Proof.decode 0x00000000000000000BF04#84 = .decodeAction 0xBF#8 ∧
    Sys2Proof.decode 0x000000001FFFFFFF90015#84 = .expand (some (keySetOf [.discN])) (BitVec.ofInt 32 (-7)) ∧
    Sys2Proof.decode 0x000880001000000000016#84 =
      .isReservedKeys (some (keySetOf [.discN, .keypad3, .keypad7])) ∧
    Sys2Proof.decode 0x00000000000000000C507#84 = .isReservedByte 0xC5#8

/-- The response word holds its fields at the bit positions of R83 (the spec's decision D3, log 16). -/
def Obligations.ResponseWordHasThePrintedLayout : Prop :=
  ∀ r : Response, (responseWord r).toNat = r.outKs.toNat + 2 ^ 36 * r.outByte.toNat + 2 ^ 44 * r.outBool.toNat +
    2 ^ 45 * r.err.toNat + 2 ^ 46 * r.errCode.toNat

/-! ### DECODE_DISC -/

/-- The partial-match mode answers the candidates whose nibble lies inside no other candidate's (R102, R104; the spec's
decisions D7 and D8, log 11). -/
def Obligations.PartialMatchIsTheTightestCandidates : Prop :=
  ∀ (s : State) (raw : Byte), ∃ ks : KeySet,
    exec (.decodeDisc raw .partialMatch) s = .next { s with response := some ⟨ks, 0#8, false, false, 0#2⟩ } ∧
      ∀ d : Key, hasKey ks d = true ↔ candidate raw d ∧
        ∀ e : Key, candidate raw e → e ≠ d → (discCode d).setWidth 4 &&& ~~~((discCode e).setWidth 4) ≠ 0#4

/-- The all-matches mode answers every candidate (R103, R104; the spec's decisions D7 and D8, log 11). -/
def Obligations.AllMatchesIsEveryCandidate : Prop :=
  ∀ (s : State) (raw : Byte), ∃ ks : KeySet,
    exec (.decodeDisc raw .allMatches) s = .next { s with response := some ⟨ks, 0#8, false, false, 0#2⟩ } ∧
      ∀ d : Key, hasKey ks d = true ↔ candidate raw d

/-- The full table of R105, in both modes, for every value of RAW[7:5] (it rests on the spec's decisions D6 to D8,
log 10, log 11). -/
def Obligations.DecodeDiscFollowsTheFullTable : Prop :=
  ∀ (s : State) (raw : Byte) (row : List Key × List Key),
    (coarseDiscRows ++ fineDiscRows)[raw.toNat % 32]? = some row →
    exec (.decodeDisc raw .partialMatch) s =
        .next { s with response := some ⟨keySetOf row.1, 0#8, false, false, 0#2⟩ } ∧
      exec (.decodeDisc raw .allMatches) s =
        .next { s with response := some ⟨keySetOf row.2, 0#8, false, false, 0#2⟩ }

/-! ### DECODE_KEYPAD and DECODE_ACTION -/

/-- R120: OP = 3; a one-hot row and a one-hot column give the key of the grid, RAW[4] is ignored, and every other value
gives the empty set. -/
def Obligations.KeypadNeedsOneHotRowAndColumn : Prop :=
  (∀ w : RequestWord, w.toNat % 8 = 3 → Sys2Proof.decode w = .decodeKeypad (w.extractLsb' 8 8)) ∧
    ∀ (s : State) (raw : Byte), ∃ ks : KeySet,
      exec (.decodeKeypad raw) s = .next { s with response := some ⟨ks, 0#8, false, false, 0#2⟩ } ∧
        (∀ e ∈ gridRows, raw.extractLsb' 0 4 = e.1 → raw.extractLsb' 5 3 = e.2.1 → ks = keySetOf [e.2.2]) ∧
        (raw.extractLsb' 0 4 ∉ [1#4, 2#4, 4#4, 8#4] ∨ raw.extractLsb' 5 3 ∉ [1#3, 2#3, 4#3] → ks = 0#36)

/-- DECODE_KEYPAD answers a key exactly when RAW without its fine bit is the key's code (R74, R120). -/
def Obligations.KeypadAnswersTheKeyOfTheCode : Prop :=
  ∀ (s : State) (raw : Byte), ∃ ks : KeySet,
    exec (.decodeKeypad raw) s = .next { s with response := some ⟨ks, 0#8, false, false, 0#2⟩ } ∧
      ∀ k : Key, hasKey ks k = true ↔ isKeypad k = true ∧ raw &&& 0xEF#8 = code k

/-- R121: OP = 4; exactly one bridged pair gives that button, all three lines give all three, every other pattern of
RAW[7:5] gives the empty set, and RAW[4:0] is ignored. -/
def Obligations.ActionButtonsFollowTheColumnLines : Prop :=
  (∀ w : RequestWord, w.toNat % 8 = 4 → Sys2Proof.decode w = .decodeAction (w.extractLsb' 8 8)) ∧
    ∀ (s : State) (raw : Byte), ∃ ks : KeySet,
      exec (.decodeAction raw) s = .next { s with response := some ⟨ks, 0#8, false, false, 0#2⟩ } ∧
        (raw.extractLsb' 5 3 = 0b101#3 → ks = keySetOf [.actionKeyTop]) ∧
        (raw.extractLsb' 5 3 = 0b011#3 → ks = keySetOf [.actionKeyBottomLeft]) ∧
        (raw.extractLsb' 5 3 = 0b110#3 → ks = keySetOf [.actionKeyBottomRight]) ∧
        (raw.extractLsb' 5 3 = 0b111#3 →
          ks = keySetOf [.actionKeyTop, .actionKeyBottomLeft, .actionKeyBottomRight]) ∧
        (raw.extractLsb' 5 3 ∈ [0b000#3, 0b001#3, 0b010#3, 0b100#3] → ks = 0#36)

/-- DECODE_KEYPAD and DECODE_ACTION are never both non-empty for one raw value (R123). -/
def Obligations.KeypadAndActionNeverBothAnswer : Prop :=
  ∀ (s : State) (raw : Byte), ∃ k a : KeySet,
    exec (.decodeKeypad raw) s = .next { s with response := some ⟨k, 0#8, false, false, 0#2⟩ } ∧
      exec (.decodeAction raw) s = .next { s with response := some ⟨a, 0#8, false, false, 0#2⟩ } ∧
      (k = 0#36 ∨ a = 0#36)

/-- R124: both operations are total and change nothing else, and where no key's pattern is there they answer the empty
set without an error. -/
def Obligations.NoMatchIsAnEmptyResult : Prop :=
  ∀ (s : State) (raw : Byte), ∃ k a : KeySet,
    exec (.decodeKeypad raw) s = .next { s with response := some ⟨k, 0#8, false, false, 0#2⟩ } ∧
      exec (.decodeAction raw) s = .next { s with response := some ⟨a, 0#8, false, false, 0#2⟩ } ∧
      ((∀ key : Key, isKeypad key = true → raw &&& 0xEF#8 ≠ code key) → k = 0#36) ∧
      ((∀ key : Key, isAction key = true → raw &&& code key ≠ code key) → a = 0#36)

/-! ### DECODE -/

/-- Rule R140, the default of GOLDEN_DECODE, in terms of the three partial decoders (the spec's decisions D9 and D10,
log 5, log 7). -/
def Obligations.DefaultDecodeComposesTheFamilies : Prop :=
  ∀ (s : State) (raw : Byte), s.params.goldenDecode = none → ∃ k d a : KeySet,
    exec (.decodeKeypad raw) s = .next { s with response := some ⟨k, 0#8, false, false, 0#2⟩ } ∧
      exec (.decodeDisc raw (if s.params.decodeDiscAllMatches then .allMatches else .partialMatch)) s =
        .next { s with response := some ⟨d, 0#8, false, false, 0#2⟩ } ∧
      exec (.decodeAction raw) s = .next { s with response := some ⟨a, 0#8, false, false, 0#2⟩ } ∧
      (k ≠ 0#36 → exec (.decode raw) s = .next { s with response := some ⟨k, 0#8, false, false, 0#2⟩ }) ∧
      (k = 0#36 → exec (.decode raw) s = .next { s with response := some ⟨d ||| a, 0#8, false, false, 0#2⟩ })

/-- With a table of its own for GOLDEN_DECODE, DECODE answers the table's entry (R141, the spec's decision D19; how a
table is held is the model's choice, log 5). -/
def Obligations.DecodeAnswersTheGivenTable : Prop :=
  ∀ (s : State) (raw : Byte) (t : Vector KeySet 256) (entry : KeySet), s.params.goldenDecode = some t →
    t[raw.toNat]? = some entry →
    exec (.decode raw) s = .next { s with response := some ⟨entry, 0#8, false, false, 0#2⟩ }

/-- Under every legal GOLDEN_DECODE the literal decodes of P2 hold and no byte decodes to a Marker, P1 (R141). -/
def Obligations.DecodeLiteralsHoldForEveryLegalTable : Prop :=
  ∀ s : State, ParamsLegal s.params →
    exec (.decode 0x81#8) s = .next { s with response := some ⟨0x20000#36, 0#8, false, false, 0#2⟩ } ∧
      exec (.decode 0xA0#8) s = .next { s with response := some ⟨0x10000000#36, 0#8, false, false, 0#2⟩ } ∧
      exec (.decode 0xE0#8) s = .next { s with response := some ⟨0x70000000#36, 0#8, false, false, 0#2⟩ } ∧
      (∃ ks : KeySet, exec (.decode 0x01#8) s = .next { s with response := some ⟨ks, 0#8, false, false, 0#2⟩ } ∧
        ks.getLsbD 8 = true) ∧
      ∀ raw : Byte, ∃ ks : KeySet,
        exec (.decode raw) s = .next { s with response := some ⟨ks, 0#8, false, false, 0#2⟩ } ∧
          ∀ k : Key, isMarker k = true → hasKey ks k = false

/-- The default GOLDEN_DECODE and RESERVED_BYTES meet P1 to P4 of R141 and the oracle of R192, in both disc modes of
DECODE (R141, R194; log 5, log 6, log 7). -/
def Obligations.DefaultParametersAreLegal : Prop :=
  ∀ p : Params, p.goldenDecode = none → p.reservedBytes = [0xA5#8] → ParamsLegal p

/-- Under the default GOLDEN_DECODE exactly eight bytes decode to the empty set (R140, corner cases; the spec's decision
D9, log 5). -/
def Obligations.ExactlyEightBytesDecodeToNothing : Prop :=
  ∀ (s : State) (raw : Byte), s.params.goldenDecode = none → ∃ ks : KeySet,
    exec (.decode raw) s = .next { s with response := some ⟨ks, 0#8, false, false, 0#2⟩ } ∧
      (ks = 0#36 ↔ raw ∈ [0x00#8, 0x10#8, 0x20#8, 0x30#8, 0x40#8, 0x50#8, 0x80#8, 0x90#8])

/-- Under the defaults DECODE gives back every single real key that ENCODE encodes (R146; the spec's decisions D6 to D10,
log 5, log 7, log 10). -/
def Obligations.SingleKeysSurviveTheRoundTrip : Prop :=
  ∀ (s : State) (k : Key), s.params.goldenDecode = none → s.params.decodeDiscAllMatches = false → isReal k = true →
    ∃ b : Byte,
      exec (.encode (some (1#36 <<< keyIndex k))) s =
          .next { s with response := some ⟨0#36, b, false, false, 0#2⟩ } ∧
        exec (.decode b) s = .next { s with response := some ⟨1#36 <<< keyIndex k, 0#8, false, false, 0#2⟩ }

/-- Under the defaults ENCODE of what DECODE answers gives back 166 of the 256 bytes and another byte for the rest (R146;
the spec's decisions D6 to D11, log 5, log 7, log 10 to log 12). -/
def Obligations.ReencodingGivesBack166Bytes : Prop :=
  ∀ s : State, s.params.goldenDecode = none → s.params.decodeDiscAllMatches = false →
    (∀ raw : Byte, ∃ b : Byte, reencoded s raw = some b) ∧
      ((List.range 256).filter fun n => reencoded s (BitVec.ofNat 8 n) == some (BitVec.ofNat 8 n)).length = 166

/-! ### ENCODE -/

/-- ENCODE answers the OR of the patterns of the real keys of the set, and 0xFF where it has none; Markers add nothing
(R142, the spec's decision D11, log 12). -/
def Obligations.EncodeOrsThePatternsOfTheRealKeys : Prop :=
  ∀ (s : State) (ks : KeySet), ∃ b : Byte,
    exec (.encode (some ks)) s = .next { s with response := some ⟨0#36, b, false, false, 0#2⟩ } ∧
      ((∀ k : Key, hasKey ks k = true → isReal k = false) → b = 0xFF#8) ∧
      ((∃ k : Key, hasKey ks k = true ∧ isReal k = true) → ∀ j : Nat, b.getLsbD j = true ↔
        ∃ k : Key, hasKey ks k = true ∧ isReal k = true ∧ (code k).getLsbD j = true)

/-- R143: an absent and an empty key set both encode to the idle sentinel 0xFF. -/
def Obligations.EmptyAndAbsentEncodeToTheSentinel : Prop :=
  ∀ s : State, exec (.encode none) s = .next { s with response := some ⟨0#36, 0xFF#8, false, false, 0#2⟩ } ∧
    exec (.encode (some 0#36)) s = .next { s with response := some ⟨0#36, 0xFF#8, false, false, 0#2⟩ }

/-- R144: keys of different families, and any keys, combine: the register value of a union of two sets that each hold a
real key is the OR of their register values. -/
def Obligations.EncodeOrComposesKeySets : Prop :=
  ∀ (s : State) (a b : KeySet), (∃ k : Key, hasKey a k = true ∧ isReal k = true) →
    (∃ k : Key, hasKey b k = true ∧ isReal k = true) →
    ∃ x y : Byte, exec (.encode (some a)) s = .next { s with response := some ⟨0#36, x, false, false, 0#2⟩ } ∧
      exec (.encode (some b)) s = .next { s with response := some ⟨0#36, y, false, false, 0#2⟩ } ∧
      exec (.encode (some (a ||| b))) s = .next { s with response := some ⟨0#36, x ||| y, false, false, 0#2⟩ }

/-- Both pairs of RESERVED_PAIRS encode to the byte 0xA5 (R195). -/
def Obligations.ReservedPairsShareOneRegisterValue : Prop :=
  ∀ (s : State), ∀ p ∈ reservedPairs,
    exec (.encode (some (keySetOf [p.1, p.2]))) s = .next { s with response := some ⟨0#36, 0xA5#8, false, false, 0#2⟩ }

/-! ### EXPAND -/

/-- EXPAND answers exactly the Disc values within the effective radius of a nominal one (R170, R171; the spec's decisions
D5 and D14, log 14, log 15). -/
def Obligations.ExpandAnswersTheSectors : Prop :=
  ∀ (s : State) (ks : KeySet) (radius : RadiusField), ∃ out : KeySet,
    exec (.expand (some ks) radius) s = .next { s with response := some ⟨out, 0#8, false, false, 0#2⟩ } ∧
      ∀ k : Key, hasKey out k = true ↔ isDisc k = true ∧ ∃ (d : Key) (off : Int), isDisc d = true ∧
        hasKey ks d = true ∧ off.natAbs ≤ min radius.toInt.natAbs 7 ∧ (keyIndex k : Int) = (keyIndex d + off) % 16

/-- Radii with one clamped absolute value give one outcome: the sign never matters, and -2^31 acts as 7 (R170, R171; the
spec's decision D5, log 15). -/
def Obligations.ExpandReadsOnlyTheClampedRadius : Prop :=
  ∀ (s : State) (ks : Option KeySet) (r r' : RadiusField), min r.toInt.natAbs 7 = min r'.toInt.natAbs 7 →
    ∃ resp : Response, exec (.expand ks r) s = .next { s with response := some resp } ∧
      exec (.expand ks r') s = .next { s with response := some resp }

/-- Radius 0 answers the Disc values of the set and nothing else (R171, corner cases; the spec's decision D14, log 14). -/
def Obligations.ExpandByZeroIsTheNominalSet : Prop :=
  ∀ (s : State) (ks : KeySet),
    exec (.expand (some ks) 0#32) s = .next { s with response := some ⟨ks &&& 0xFFFF#36, 0#8, false, false, 0#2⟩ }

/-- One nominal direction gives 2 * reff + 1 directions, and at radius 7 or more all but its antipode (R171, corner
cases). -/
def Obligations.ExpandOfOneDirection : Prop :=
  ∀ (s : State) (d : Key) (radius : RadiusField), isDisc d = true → ∃ out : KeySet,
    exec (.expand (some (1#36 <<< keyIndex d)) radius) s =
        .next { s with response := some ⟨out, 0#8, false, false, 0#2⟩ } ∧
      ((List.range 36).filter out.getLsbD).length = 2 * min radius.toInt.natAbs 7 + 1 ∧
      (7 ≤ radius.toInt.natAbs → ∀ k : Key, hasKey out k = true ↔ isDisc k = true ∧ k ≠ antipode d)

/-- EXPAND of an absent key set raises InvalidArgument: the request's outcome is a fault, ERR = 1 and ERR_CODE = 1 with
every result field 0, and nothing else changes (R211, R212; the spec's decision D15; that the machine then goes on is
log 3). -/
def Obligations.ExpandOfAbsentRaisesInvalidArgument : Prop :=
  ∀ (s : State) (radius : RadiusField), ∃ r : Response,
    exec (.expand none radius) s = .next { s with response := some r } ∧ r = ⟨0#36, 0#8, false, true, 1#2⟩ ∧
      requestFault r = some .invalidArgument ∧ responseWord r = 0x600000000000#48

/-- R213: no operation, operand or encoding but EXPAND of an absent key set raises an error; all other requests complete
without one. -/
def Obligations.NoOtherCauseRaisesAnError : Prop :=
  ∀ (s : State) (w : RequestWord) (rest : List RequestWord), s.requests = w :: rest → ∃ r : Response,
    step s = .next { s with requests := rest, response := some r } ∧
      (r.err = true ↔ w.toNat % 8 = 5 ∧ w.getLsbD 4 = false)

/-- The outcome of a request (R212) is the fault InvalidArgument for EXPAND of an absent key set, and no fault for every
other operation and request, which also leave ERR and ERR_CODE 0 (R211, R213; the spec's decision D15; that the outcome is
`requestFault` of the response is log 3). -/
def Obligations.OnlyExpandOfAbsentHasAFaultOutcome : Prop :=
  (∀ (i : Instr) (s : State), ∃ r : Response, exec i s = .next { s with response := some r } ∧
      ((∃ radius : RadiusField, i = .expand none radius) → requestFault r = some .invalidArgument) ∧
      ((∀ radius : RadiusField, i ≠ .expand none radius) →
        requestFault r = none ∧ r.err = false ∧ r.errCode = 0#2)) ∧
    ∀ (s : State) (w : RequestWord) (rest : List RequestWord), s.requests = w :: rest → ∃ r : Response,
      step s = .next { s with requests := rest, response := some r } ∧
        (w.toNat % 8 = 5 ∧ w.getLsbD 4 = false → requestFault r = some .invalidArgument) ∧
        (¬ (w.toNat % 8 = 5 ∧ w.getLsbD 4 = false) → requestFault r = none)

/-! ### The reserved-combination detector -/

/-- IS_RESERVED_BYTE is true exactly on RESERVED_BYTES, by default on 0xA5 alone (R190, the spec's decision D13,
log 6). -/
def Obligations.ByteIsReservedWhenListed : Prop :=
  ∀ (s : State) (raw : Byte), ∃ v : Bool,
    exec (.isReservedByte raw) s = .next { s with response := some ⟨0#36, 0#8, v, false, 0#2⟩ } ∧
      (v = true ↔ raw ∈ s.params.reservedBytes) ∧
      (s.params.reservedBytes = State.reset.params.reservedBytes → (v = true ↔ raw = 0xA5#8))

/-- IS_RESERVED_KEYS is IS_RESERVED_BYTE of ENCODE, and false for an absent set (R191, the spec's decision D12,
log 13). -/
def Obligations.KeysAreReservedThroughTheirRegisterValue : Prop :=
  ∀ s : State, exec (.isReservedKeys none) s = .next { s with response := some ⟨0#36, 0#8, false, false, 0#2⟩ } ∧
    ∀ ks : KeySet, ∃ (b : Byte) (v : Bool),
      exec (.encode (some ks)) s = .next { s with response := some ⟨0#36, b, false, false, 0#2⟩ } ∧
        exec (.isReservedByte b) s = .next { s with response := some ⟨0#36, 0#8, v, false, 0#2⟩ } ∧
        exec (.isReservedKeys (some ks)) s = .next { s with response := some ⟨0#36, 0#8, v, false, 0#2⟩ }

/-- Under the default GOLDEN_DECODE and RESERVED_BYTES the ten oracle entries R192 requires hold, and the two detectors
agree on every DECODE result (R194; the spec's decisions D9, D12 and D13, log 5, log 6, log 13). -/
def Obligations.OracleEntriesAndAgreementHold : Prop :=
  ∀ s : State, s.params.goldenDecode = none → s.params.reservedBytes = [0xA5#8] →
    (∀ e ∈ [([Key.keypad1, .keypad9], true), ([.keypad1, .keypad9, .actionKeyTop], true),
        ([.keypad1, .keypad9, .actionKeyBottomRight], false), ([.keypad3, .keypad7], true)],
      exec (.isReservedKeys (some (keySetOf e.1))) s =
        .next { s with response := some ⟨0#36, 0#8, e.2, false, 0#2⟩ }) ∧
    (∀ e ∈ [(0xA5#8, true), (0xA7#8, false), (0x00#8, false), (0xFF#8, false), (0xC5#8, false), (0xC7#8, false)],
      exec (.isReservedByte e.1) s = .next { s with response := some ⟨0#36, 0#8, e.2, false, 0#2⟩ }) ∧
    ∀ raw : Byte, ∃ (ks : KeySet) (v : Bool),
      exec (.decode raw) s = .next { s with response := some ⟨ks, 0#8, false, false, 0#2⟩ } ∧
        exec (.isReservedKeys (some ks)) s = .next { s with response := some ⟨0#36, 0#8, v, false, 0#2⟩ } ∧
        exec (.isReservedByte raw) s = .next { s with response := some ⟨0#36, 0#8, v, false, 0#2⟩ }

/-- Under the default RESERVED_BYTES a key set is reserved exactly when its real keys are drawn from the seven keys inside
0xA5 and it contains one of the 11 minimal reserved sets (R193; the spec's decisions D12 and D13, log 6, log 13). -/
def Obligations.ReservedKeySetsContainAMinimalOne : Prop :=
  ∀ (s : State) (ks : KeySet), s.params.reservedBytes = [0xA5#8] → ∃ v : Bool,
    exec (.isReservedKeys (some ks)) s = .next { s with response := some ⟨0#36, 0#8, v, false, 0#2⟩ } ∧
      (v = true ↔ (∀ k : Key, hasKey ks k = true → isReal k = true → k ∈ sevenKeys) ∧
        ∃ m ∈ minimalReservedSets, ∀ k ∈ m, hasKey ks k = true)

/-! ### Markers -/

/-- R25: the Markers are the five named values and no real key; under a GOLDEN_DECODE that meets P1 no operation outputs
one; and every operation that takes a key set ignores those in it. -/
def Obligations.MarkersAreNeverOutputAndIgnoredOnInput : Prop :=
  (∀ k : Key, isMarker k = true ↔ k ∈ [Key.none, .noneActive, .discActive, .actionKeyActive, .keypadActive]) ∧
    (∀ k ∈ realKeys, isMarker k = false) ∧
    (∀ (i : Instr) (s : State), goldenMarkerFree s.params → ∃ r : Response,
      exec i s = .next { s with response := some r } ∧ ∀ k : Key, isMarker k = true → hasKey r.outKs k = false) ∧
    ∀ (s : State) (ks : KeySet) (radius : RadiusField), ∃ r₁ r₂ r₃ : Response,
      exec (.encode (some ks)) s = .next { s with response := some r₁ } ∧
        exec (.encode (some (ks &&& 0x7FFFFFFF#36))) s = .next { s with response := some r₁ } ∧
        exec (.expand (some ks) radius) s = .next { s with response := some r₂ } ∧
        exec (.expand (some (ks &&& 0x7FFFFFFF#36)) radius) s = .next { s with response := some r₂ } ∧
        exec (.isReservedKeys (some ks)) s = .next { s with response := some r₃ } ∧
        exec (.isReservedKeys (some (ks &&& 0x7FFFFFFF#36))) s = .next { s with response := some r₃ }
end

