-- ==== Sys2Proof/Laws/KeySet.lean ====
section
/-!
SUPPORT. Keys, and key sets as 36-bit vectors: membership decides a key set, and commutes with union.
-/

namespace Sys2Proof.Machine

/-! ### Keys -/

theorem keyIndex_lt (k : Key) : keyIndex k < 36 := by cases k <;> decide

theorem mem_allKeys (k : Key) : k ∈ allKeys := by cases k <;> decide

/-- A claim about every key is a claim about the 36 of the list. -/
theorem forall_key_iff {P : Key → Prop} : (∀ k, P k) ↔ ∀ k ∈ allKeys, P k :=
  ⟨fun h k _ => h k, fun h k => h k (mem_allKeys k)⟩

theorem exists_key_iff {P : Key → Prop} : (∃ k, P k) ↔ ∃ k ∈ allKeys, P k :=
  ⟨fun ⟨k, h⟩ => ⟨k, mem_allKeys k, h⟩, fun ⟨k, _, h⟩ => ⟨k, h⟩⟩

theorem allKeys_map_keyIndex : allKeys.map keyIndex = List.range 36 := by decide

theorem keyIndex_injective {k l : Key} (h : keyIndex k = keyIndex l) : k = l := by
  have inj : ∀ a ∈ allKeys, ∀ b ∈ allKeys, keyIndex a = keyIndex b → a = b := by decide
  exact inj k (mem_allKeys k) l (mem_allKeys l) h

@[simp] theorem keyIndex_inj {k l : Key} : keyIndex k = keyIndex l ↔ k = l :=
  ⟨keyIndex_injective, fun h => h ▸ rfl⟩

/-- Every index below 36 is a key's. -/
theorem exists_keyIndex {i : Nat} (h : i < 36) : ∃ k, keyIndex k = i := by
  have : i ∈ allKeys.map keyIndex := by rw [allKeys_map_keyIndex]; simpa using h
  obtain ⟨k, -, hk⟩ := List.mem_map.1 this
  exact ⟨k, hk⟩

theorem isDisc_iff (k : Key) : isDisc k = true ↔ keyIndex k < 16 := by cases k <;> decide

theorem isMarker_iff (k : Key) : isMarker k = true ↔ 31 ≤ keyIndex k := by cases k <;> decide

theorem isReal_iff (k : Key) : isReal k = true ↔ keyIndex k < 31 := by cases k <;> decide

@[simp] theorem mem_realKeys (k : Key) : k ∈ realKeys ↔ isReal k = true := by
  simp [realKeys, mem_allKeys]

@[simp] theorem mem_discKeys (k : Key) : k ∈ discKeys ↔ isDisc k = true := by
  simp [discKeys, mem_allKeys]

/-! ### Membership -/

@[simp] theorem hasKey_zero (k : Key) : hasKey 0#36 k = false := by simp [hasKey]

@[simp] theorem hasKey_or (a b : KeySet) (k : Key) : hasKey (a ||| b) k = (hasKey a k || hasKey b k) := by
  simp [hasKey]

@[simp] theorem hasKey_and (a b : KeySet) (k : Key) : hasKey (a &&& b) k = (hasKey a k && hasKey b k) := by
  simp [hasKey]

@[simp] theorem hasKey_keyBit (l k : Key) : hasKey (keyBit l) k = true ↔ k = l := by
  have h := keyIndex_lt k
  simp only [hasKey, keyBit, BitVec.getLsbD_shiftLeft, BitVec.getLsbD_one, Bool.and_eq_true, decide_eq_true_eq,
    Bool.not_eq_true', decide_eq_false_iff_not]
  rw [← keyIndex_inj]
  omega

@[simp] theorem hasKey_keySetOf (l : List Key) (k : Key) : hasKey (keySetOf l) k = true ↔ k ∈ l := by
  induction l with
  | nil => simp [keySetOf]
  | cons a l ih => simp [keySetOf, ih]

/-- Two key sets with the same keys are the same vector. -/
theorem keySet_ext {a b : KeySet} (h : ∀ k, hasKey a k = true ↔ hasKey b k = true) : a = b := by
  apply BitVec.eq_of_getLsbD_eq
  intro i hi
  obtain ⟨k, rfl⟩ := exists_keyIndex hi
  exact Bool.eq_iff_iff.2 (h k)

@[simp] theorem mem_realKeysOf (ks : KeySet) (k : Key) :
    k ∈ realKeysOf ks ↔ isReal k = true ∧ hasKey ks k = true := by
  simp [realKeysOf]

@[simp] theorem mem_discKeysOf (ks : KeySet) (k : Key) :
    k ∈ discKeysOf ks ↔ isDisc k = true ∧ hasKey ks k = true := by
  simp [discKeysOf]

/-- KS[35:31] is zero exactly when no Marker is in the set (R77). -/
theorem markerBits_eq_zero_iff (ks : KeySet) :
    markerBits ks = 0#5 ↔ ∀ k, isMarker k = true → hasKey ks k = false := by
  constructor
  · intro h k hk
    have hlt := keyIndex_lt k
    have hge := (isMarker_iff k).1 hk
    have hb : (markerBits ks).getLsbD (keyIndex k - 31) = false := by simp [h]
    rw [markerBits, BitVec.getLsbD_extractLsb'] at hb
    have e : 31 + (keyIndex k - 31) = keyIndex k := by omega
    rw [e] at hb
    have hd : decide (keyIndex k - 31 < 5) = true := by simp; omega
    simpa [hd, hasKey] using hb
  · intro h
    apply BitVec.eq_of_getLsbD_eq
    intro i hi
    obtain ⟨k, hk⟩ := exists_keyIndex (i := 31 + i) (by omega)
    have := h k ((isMarker_iff k).2 (by omega))
    simp only [markerBits, BitVec.getLsbD_extractLsb', hi, decide_true, Bool.true_and, ← hk, BitVec.getLsbD_zero]
    simpa [hasKey] using this

end Sys2Proof.Machine
end

