-- ==== Sys2Proof/Laws/Codec.lean ====
section
/-!
SUPPORT. What the shared computations answer: the OR of key patterns, the register value, the effective radius and the
sector of a direction.
-/

namespace Sys2Proof.Machine

/-! ### ENCODE -/

/-- A bit is set in the OR of some patterns exactly when one of them has it. -/
theorem orCodes_getLsbD (l : List Key) (j : Nat) :
    (orCodes l).getLsbD j = true ↔ ∃ k ∈ l, (code k).getLsbD j = true := by
  induction l with
  | nil => simp [orCodes]
  | cons a l ih => rw [orCodes, BitVec.getLsbD_or, Bool.or_eq_true, ih]; simp

/-- Only the real keys of a set matter to its register value. -/
theorem registerValue_congr {a b : KeySet} (h : ∀ k, isReal k = true → hasKey a k = hasKey b k) :
    registerValue a = registerValue b := by
  have e : realKeysOf a = realKeysOf b :=
    List.filter_congr fun k hk => h k ((mem_realKeys k).1 hk)
  rw [registerValue, registerValue, e]

theorem realKeysOf_isEmpty_iff (ks : KeySet) :
    (realKeysOf ks).isEmpty = true ↔ ∀ k, hasKey ks k = true → isReal k = false := by
  rw [List.isEmpty_iff, List.eq_nil_iff_forall_not_mem]
  simp only [mem_realKeysOf, not_and, Bool.not_eq_true]
  exact ⟨fun h k hk => Bool.eq_false_iff.2 fun hr => by simp [h k hr] at hk,
    fun h k hr => Bool.eq_false_iff.2 fun hk => by simp [h k hk] at hr⟩

/-! ### EXPAND -/

theorem effectiveRadius_le (radius : RadiusField) : effectiveRadius radius ≤ 7 := Nat.min_le_right _ _

theorem mem_ringOffsets (r : Nat) (k : Int) : k ∈ ringOffsets r ↔ k.natAbs ≤ r := by
  simp only [ringOffsets, List.mem_map, List.mem_range]
  constructor
  · rintro ⟨j, hj, rfl⟩; omega
  · intro h; exact ⟨(k + r).toNat, by omega, by omega⟩

/-- `disc(i)` has ring index `i mod 16` (R22). -/
theorem keyIndex_disc (i : Int) : keyIndex (disc i) = ringWrap i := by
  have h : ∀ j < 16, keyIndex (discKeys.getD j .discN) = j := by decide
  exact h (ringWrap i) (by unfold ringWrap; omega)

theorem mem_sector (r : Nat) (d k : Key) :
    k ∈ sector r d ↔ ∃ off : Int, off.natAbs ≤ r ∧ k = disc ((ring d : Int) + off) := by
  simp only [sector, List.mem_map, mem_ringOffsets]
  exact ⟨fun ⟨o, h, e⟩ => ⟨o, h, e.symm⟩, fun ⟨o, h, e⟩ => ⟨o, h, e.symm⟩⟩

/-- What EXPAND answers, key by key. -/
theorem hasKey_expandSet (ks : KeySet) (radius : RadiusField) (k : Key) :
    hasKey (expandSet ks radius) k = true ↔
      ∃ d, isDisc d = true ∧ hasKey ks d = true ∧ k ∈ sector (effectiveRadius radius) d := by
  simp [expandSet, List.mem_flatMap, and_assoc]

end Sys2Proof.Machine
end

