-- ==== Sys2Proof/Laws/Decode.lean ====
section
/-!
SUPPORT. The fields of a packed request word are the fields it was packed from (30_encoding.md R81).
-/

namespace Sys2Proof

section
variable (op : BitVec 3) (mode ksPresent : Bool) (raw : Byte) (radius : RadiusField) (ks : KeySet)

/-- Bit `i` of a packed word, field by field. -/
theorem packRequest_getLsbD (i : Nat) :
    (packRequest op mode ksPresent raw radius ks).getLsbD i =
      if i < 3 then op.getLsbD i
      else if i < 4 then mode
      else if i < 5 then ksPresent
      else if i < 8 then false
      else if i < 16 then raw.getLsbD (i - 8)
      else if i < 48 then radius.getLsbD (i - 16)
      else ks.getLsbD (i - 48) := by
  simp only [packRequest, BitVec.getLsbD_or, BitVec.getLsbD_shiftLeft, BitVec.getLsbD_setWidth,
    BitVec.getLsbD_ofBool]
  by_cases h3 : i = 3
  · subst h3; simp
  by_cases h4 : i = 4
  · subst h4; simp
  by_cases hi : i < 84
  · split_ifs <;> simp (disch := omega) [*] <;> grind
  · split_ifs <;> simp (disch := omega) [*] <;> omega

@[simp] theorem reqOp_packRequest : reqOp (packRequest op mode ksPresent raw radius ks) = op := by
  apply BitVec.eq_of_getLsbD_eq
  intro i hi
  rw [reqOp, BitVec.getLsbD_extractLsb', packRequest_getLsbD]
  simp [hi]

@[simp] theorem reqMode_packRequest : reqMode (packRequest op mode ksPresent raw radius ks) = mode := by
  rw [reqMode, packRequest_getLsbD]
  simp

@[simp] theorem reqKsPresent_packRequest :
    reqKsPresent (packRequest op mode ksPresent raw radius ks) = ksPresent := by
  rw [reqKsPresent, packRequest_getLsbD]
  simp

@[simp] theorem reqReserved_packRequest :
    (packRequest op mode ksPresent raw radius ks).extractLsb' 5 3 = 0#3 := by
  apply BitVec.eq_of_getLsbD_eq
  intro i hi
  rw [BitVec.getLsbD_extractLsb', packRequest_getLsbD]
  split_ifs <;> first | omega | simp

@[simp] theorem reqRaw_packRequest : reqRaw (packRequest op mode ksPresent raw radius ks) = raw := by
  apply BitVec.eq_of_getLsbD_eq
  intro i hi
  rw [reqRaw, BitVec.getLsbD_extractLsb', packRequest_getLsbD]
  split_ifs <;> first | omega | simp [hi]

@[simp] theorem reqRadius_packRequest : reqRadius (packRequest op mode ksPresent raw radius ks) = radius := by
  apply BitVec.eq_of_getLsbD_eq
  intro i hi
  rw [reqRadius, BitVec.getLsbD_extractLsb', packRequest_getLsbD]
  split_ifs <;> first | omega | simp [hi]

@[simp] theorem reqKs_packRequest : reqKs (packRequest op mode ksPresent raw radius ks) = ks := by
  apply BitVec.eq_of_getLsbD_eq
  intro i hi
  rw [reqKs, BitVec.getLsbD_extractLsb', packRequest_getLsbD]
  split_ifs <;> first | omega | simp [hi]

/-- A packed word is what a requester may send (R85). -/
theorem packRequest_wellFormed : requestWordWellFormed (packRequest op mode ksPresent raw radius ks) = true := by
  simp [requestWordWellFormed]

end

/-- The key-set operand of a packed word, absent or present (R78). -/
@[simp] theorem reqKeySet_packRequest (op : BitVec 3) (mode : Bool) (raw : Byte) (radius : RadiusField)
    (ks : Option KeySet) : reqKeySet (packRequest op mode ks.isSome raw radius (ksField ks)) = ks := by
  cases ks <;> simp [reqKeySet, ksField]

@[simp] theorem discModeOf_modeBit (mode : DiscMode) : discModeOf (modeBit mode) = mode := by
  cases mode <;> rfl

end Sys2Proof
end

