-- ==== Sys2Proof/Laws/State.lean ====
section
/-!
SUPPORT. One lemma per field per update of the state and of a response, so that no later proof unfolds a record update.
-/

namespace Sys2Proof.Machine

variable (s : State) (w : RequestWord) (rest : List RequestWord) (r : Response) (o : Option Response)

/-! ### Updates of the state -/

@[simp] theorem withRequests_params : ({ s with requests := rest } : State).params = s.params := rfl
@[simp] theorem withRequests_requests : ({ s with requests := rest } : State).requests = rest := rfl
@[simp] theorem withRequests_response : ({ s with requests := rest } : State).response = s.response := rfl
@[simp] theorem withResponse_params : ({ s with response := o } : State).params = s.params := rfl
@[simp] theorem withResponse_requests : ({ s with response := o } : State).requests = s.requests := rfl
@[simp] theorem withResponse_response : ({ s with response := o } : State).response = o := rfl
@[simp] theorem putRequest_params : (putRequest w s).params = s.params := rfl
@[simp] theorem putRequest_requests : (putRequest w s).requests = w :: s.requests := rfl
@[simp] theorem putRequest_response : (putRequest w s).response = s.response := rfl

/-! ### Responses -/

variable (ks : KeySet) (b : Byte) (v : Bool) (e : RequestError)

@[simp] theorem keysResponse_outKs : (keysResponse ks).outKs = ks := rfl
@[simp] theorem keysResponse_outByte : (keysResponse ks).outByte = 0#8 := rfl
@[simp] theorem keysResponse_outBool : (keysResponse ks).outBool = false := rfl
@[simp] theorem keysResponse_err : (keysResponse ks).err = false := rfl
@[simp] theorem keysResponse_errCode : (keysResponse ks).errCode = 0#2 := rfl
@[simp] theorem byteResponse_outKs : (byteResponse b).outKs = 0#36 := rfl
@[simp] theorem byteResponse_outByte : (byteResponse b).outByte = b := rfl
@[simp] theorem byteResponse_outBool : (byteResponse b).outBool = false := rfl
@[simp] theorem byteResponse_err : (byteResponse b).err = false := rfl
@[simp] theorem byteResponse_errCode : (byteResponse b).errCode = 0#2 := rfl
@[simp] theorem boolResponse_outKs : (boolResponse v).outKs = 0#36 := rfl
@[simp] theorem boolResponse_outByte : (boolResponse v).outByte = 0#8 := rfl
@[simp] theorem boolResponse_outBool : (boolResponse v).outBool = v := rfl
@[simp] theorem boolResponse_err : (boolResponse v).err = false := rfl
@[simp] theorem boolResponse_errCode : (boolResponse v).errCode = 0#2 := rfl
@[simp] theorem errorResponse_outKs : (errorResponse e).outKs = 0#36 := rfl
@[simp] theorem errorResponse_outByte : (errorResponse e).outByte = 0#8 := rfl
@[simp] theorem errorResponse_outBool : (errorResponse e).outBool = false := rfl
@[simp] theorem errorResponse_err : (errorResponse e).err = true := rfl
@[simp] theorem errorResponse_errCode : (errorResponse e).errCode = errCodeOf e := rfl

end Sys2Proof.Machine
end

