-- ==== Sys2Proof/Laws/Ops.lean ====
section
/-!
SUPPORT. What each shared operation can do, said once: taking and placing a request, driving a response, raising the
error; and each meaning as one response.
-/

namespace Sys2Proof.Machine

/-! ### Requests -/

@[simp] theorem takeRequest_none_iff (s : State) : takeRequest s = none ↔ s.requests = [] := by
  unfold takeRequest
  split <;> simp_all

theorem takeRequest_some_iff (s t : State) (w : RequestWord) :
    takeRequest s = some (w, t) ↔ ∃ rest, s.requests = w :: rest ∧ t = { s with requests := rest } := by
  unfold takeRequest
  split
  · simp_all
  · next h => simp [h, eq_comm, and_assoc]

@[simp] theorem takeRequest_putRequest (s : State) (w : RequestWord) :
    takeRequest (putRequest w s) = some (w, s) := rfl

/-! ### Driving a response -/

theorem respond_eq_next_iff (r : Response) (s t : State) :
    respond r s = .next t ↔ t = { s with response := some r } := by
  simp [respond, eq_comm]

theorem idle_eq_next_iff (s t : State) : idle s = .next t ↔ t = { s with response := none } := by
  simp [idle, eq_comm]

theorem returnKeys_eq (ks : KeySet) (s : State) :
    returnKeys ks s = .next { s with response := some (keysResponse ks) } := rfl

theorem returnByte_eq (b : Byte) (s : State) :
    returnByte b s = .next { s with response := some (byteResponse b) } := rfl

theorem returnBool_eq (b : Bool) (s : State) :
    returnBool b s = .next { s with response := some (boolResponse b) } := rfl

theorem raise_eq (e : RequestError) (s : State) :
    raise e s = .next { s with response := some (errorResponse e) } := rfl

/-! ### The response of an operation -/

/-- The response of each operation to its operands under parameters `p`. -/
def responseOf (p : Params) : Instr → Response
  | .decode raw => keysResponse (goldenDecode p raw)
  | .encode ks => byteResponse (encodeKeys ks)
  | .decodeDisc raw mode => keysResponse (discSet raw mode)
  | .decodeKeypad raw => keysResponse (keypadSet raw)
  | .decodeAction raw => keysResponse (actionSet raw)
  | .expand none _ => errorResponse .invalidArgument
  | .expand (some ks) radius => keysResponse (expandSet ks radius)
  | .isReservedKeys ks => boolResponse (keysReserved p ks)
  | .isReservedByte raw => boolResponse (byteReserved p raw)

/-- Every meaning drives `responseOf` and does nothing else. -/
theorem exec_eq_responseOf (i : Instr) (s : State) :
    exec i s = .next { s with response := some (responseOf s.params i) } := by
  cases i with
  | decode raw => rfl
  | encode ks => rfl
  | decodeDisc raw mode => rfl
  | decodeKeypad raw => rfl
  | decodeAction raw => rfl
  | expand ks radius => cases ks <;> rfl
  | isReservedKeys ks => rfl
  | isReservedByte raw => rfl

end Sys2Proof.Machine
end

