-- ==== Sys2Proof/Laws/PerInstr.lean ====
section
/-!
SUPPORT. A law of every instruction as syntax: the encoder writes 0 in the reserved request bits 7:5, as R85 asks of a
requester.
-/

/-- The request word the encoder writes for `i` is well formed. -/
def Sys2Proof.Laws.ReservedBitsZero.Statement (i : Sys2Proof.Instr) : Prop :=
  Sys2Proof.requestWordWellFormed (Sys2Proof.encode i) = true

namespace Sys2Proof.Laws

theorem ReservedBitsZero.decode (raw : Byte) : ReservedBitsZero.Statement (.decode raw) :=
  packRequest_wellFormed _ _ _ _ _ _

theorem ReservedBitsZero.encode (ks : Option KeySet) : ReservedBitsZero.Statement (.encode ks) :=
  packRequest_wellFormed _ _ _ _ _ _

theorem ReservedBitsZero.decodeDisc (raw : Byte) (mode : DiscMode) :
    ReservedBitsZero.Statement (.decodeDisc raw mode) :=
  packRequest_wellFormed _ _ _ _ _ _

theorem ReservedBitsZero.decodeKeypad (raw : Byte) : ReservedBitsZero.Statement (.decodeKeypad raw) :=
  packRequest_wellFormed _ _ _ _ _ _

theorem ReservedBitsZero.decodeAction (raw : Byte) : ReservedBitsZero.Statement (.decodeAction raw) :=
  packRequest_wellFormed _ _ _ _ _ _

theorem ReservedBitsZero.expand (ks : Option KeySet) (radius : RadiusField) :
    ReservedBitsZero.Statement (.expand ks radius) :=
  packRequest_wellFormed _ _ _ _ _ _

theorem ReservedBitsZero.isReservedKeys (ks : Option KeySet) : ReservedBitsZero.Statement (.isReservedKeys ks) :=
  packRequest_wellFormed _ _ _ _ _ _

theorem ReservedBitsZero.isReservedByte (raw : Byte) : ReservedBitsZero.Statement (.isReservedByte raw) :=
  packRequest_wellFormed _ _ _ _ _ _

end Sys2Proof.Laws
end

