-- ==== Sys2Proof/Tests/Slice0.lean ====
section
/-!
SUPPORT. The model's own tests. Expected results come from the spec: the layout of 30_encoding.md R81 and R82 for the
decode tests, the printed words of 95_test_vectors.md for the answers. The last part shows, for each statement with
hypotheses, a concrete input that meets them all.
-/

namespace Sys2Proof.Tests.Slice0

open Sys2Proof Sys2Proof.Machine

/-! ### Well-formedness (R85) -/

/-- A word with reserved bit 5, 6 or 7 set is ill formed. -/
theorem test_reserved_bits_are_ill_formed :
    requestWordWellFormed 0x20#84 = false ∧ requestWordWellFormed 0x40#84 = false ∧
      requestWordWellFormed 0x80#84 = false ∧ requestWordWellFormed 0x00000000000000000A507#84 = true := by decide

/-- The block ignores them: the ill-formed word decodes as the well-formed one. -/
theorem test_reserved_bits_are_ignored :
    Sys2Proof.decode 0x00000000000000000A5E7#84 = Sys2Proof.decode 0x00000000000000000A507#84 := by decide

/-- A number with bit 84 set is no request word. -/
theorem test_too_wide_is_refused :
    decodeBits (2 ^ 84) = .error .notOneRequestWord ∧ decodeTableWord 88 (2 ^ 84) = none := by decide

/-! ### Decoding, each word written out bit by bit -/

/-- DECODE 0x81: OP 000, RAW 10000001 (R81, R82). -/
theorem test_decode_bits_decode :
    Sys2Proof.decode
      0b000000000000000000000000000000000000000000000000000000000000000000001000000100000000#84 =
    .decode 0x81#8 := by decide

/-- ENCODE {DiscWSW}: OP 001, KS_PRESENT 1, KS[11] = 1 (R81, R82). -/
theorem test_decode_bits_encode :
    Sys2Proof.decode
      0b000000000000000000000000100000000000000000000000000000000000000000000000000000010001#84 =
    .encode (some (keySetOf [.discWSW])) := by decide

/-- ENCODE absent: OP 001, KS_PRESENT 0 (R81, R82). -/
theorem test_decode_bits_encode_absent :
    Sys2Proof.decode
      0b000000000000000000000000000000000000000000000000000000000000000000000000000000000001#84 =
    .encode none := by decide

/-- DECODE_DISC 0x06, all: OP 010, MODE 1, RAW 00000110 (R81, R82). -/
theorem test_decode_bits_decodeDisc :
    Sys2Proof.decode
      0b000000000000000000000000000000000000000000000000000000000000000000000000011000001010#84 =
    .decodeDisc 0x06#8 .allMatches := by decide

/-- DECODE_DISC 0x16, partial: OP 010, MODE 0, RAW 00010110 (R81, R82). -/
theorem test_decode_bits_decodeDisc_partial :
    Sys2Proof.decode
      0b000000000000000000000000000000000000000000000000000000000000000000000001011000000010#84 =
    .decodeDisc 0x16#8 .partialMatch := by decide

/-- DECODE_KEYPAD 0x28: OP 011, RAW 00101000 (R81, R82). -/
theorem test_decode_bits_decodeKeypad :
    Sys2Proof.decode
      0b000000000000000000000000000000000000000000000000000000000000000000000010100000000011#84 =
    .decodeKeypad 0x28#8 := by decide

/-- DECODE_ACTION 0xC0: OP 100, RAW 11000000 (R81, R82). -/
theorem test_decode_bits_decodeAction :
    Sys2Proof.decode
      0b000000000000000000000000000000000000000000000000000000000000000000001100000000000100#84 =
    .decodeAction 0xC0#8 := by decide

/-- EXPAND {DiscNE}, -9: OP 101, KS_PRESENT 1, RADIUS two's complement, KS[2] = 1 (R81, R82). -/
theorem test_decode_bits_expand :
    Sys2Proof.decode
      0b000000000000000000000000000000000100111111111111111111111111111101110000000000010101#84 =
    .expand (some (keySetOf [.discNE])) (BitVec.ofInt 32 (-9)) := by decide

/-- IS_RESERVED_KEYS {Keypad1, Keypad9, ActionKeyBottomRight}: OP 110, KS[17], KS[25] and KS[30] = 1 (R81, R82). -/
theorem test_decode_bits_isReservedKeys :
    Sys2Proof.decode
      0b000001000010000000100000000000000000000000000000000000000000000000000000000000010110#84 =
    .isReservedKeys (some (keySetOf [.keypad1, .keypad9, .actionKeyBottomRight])) := by decide

/-- IS_RESERVED_BYTE 0xA5: OP 111, RAW 10100101 (R81, R82). -/
theorem test_decode_bits_isReservedByte :
    Sys2Proof.decode
      0b000000000000000000000000000000000000000000000000000000000000000000001010010100000111#84 =
    .isReservedByte 0xA5#8 := by decide

/-! ### One step on one request after reset -/

/-- The response word to one request after reset. -/
def answer (w : RequestWord) : Option ResponseWord :=
  match step (State.reset.withFetchWord 84 w.toNat) with
  | .next t => t.response.map responseWord
  | .fault _ => none
  | .refused _ => none

/-- `DECODE 0x81`, section 2 of 95_test_vectors.md. -/
theorem test_decode_keypad_owns_the_row : answer 0x000000000000000008100#84 = some 0x000000020000#48 := by decide

/-- `DECODE 0xA5`, section 2 of 95_test_vectors.md. -/
theorem test_decode_reserved_value : answer 0x00000000000000000A500#84 = some 0x000010000101#48 := by decide

/-- `ENCODE {DiscS, KeypadClear, ActionKeyBottomLeft}`, section 2 of 95_test_vectors.md. -/
theorem test_encode_three_families : answer 0x024000100000000000011#84 = some 0x0E9000000000#48 := by decide

/-- `ENCODE {None, KeypadActive}`, section 2 of 95_test_vectors.md. -/
theorem test_encode_markers_only : answer 0x880000000000000000011#84 = some 0x0FF000000000#48 := by decide

/-- `DECODE_DISC 0x16, all`, section 2 of 95_test_vectors.md. -/
theorem test_decodeDisc_fine_pair_all : answer 0x00000000000000000160A#84 = some 0x000000000026#48 := by decide

/-- `DECODE_DISC 0x07, partial`, section 2 of 95_test_vectors.md. -/
theorem test_decodeDisc_three_lines_partial : answer 0x000000000000000000702#84 = some 0x000000000088#48 := by decide

/-- `DECODE_KEYPAD 0x91`, section 2 of 95_test_vectors.md. -/
theorem test_decodeKeypad_fine_ignored : answer 0x000000000000000009103#84 = some 0x000000020000#48 := by decide

/-- `DECODE_KEYPAD 0xA1`, section 2 of 95_test_vectors.md. -/
theorem test_decodeKeypad_two_columns : answer 0x00000000000000000A103#84 = some 0x000000000000#48 := by decide

/-- `DECODE_ACTION 0xBF`, section 2 of 95_test_vectors.md. -/
theorem test_decodeAction_low_bits_ignored : answer 0x00000000000000000BF04#84 = some 0x000010000000#48 := by decide

/-- `DECODE_ACTION 0xE0`, section 2 of 95_test_vectors.md. -/
theorem test_decodeAction_all_lines : answer 0x00000000000000000E004#84 = some 0x000070000000#48 := by decide

/-- `EXPAND {DiscNNW}, 2`, section 2 of 95_test_vectors.md. -/
theorem test_expand_wraps_past_north : answer 0x000008000000000020015#84 = some 0x00000000E003#48 := by decide

/-- `EXPAND {DiscN}, -2147483648`, section 2 of 95_test_vectors.md. -/
theorem test_expand_most_negative_radius : answer 0x000000001800000000015#84 = some 0x00000000FEFF#48 := by decide

/-- `EXPAND absent, 3`, section 2 and program 3 of 95_test_vectors.md. -/
theorem test_expand_absent : answer 0x000000000000000030005#84 = some 0x600000000000#48 := by decide

/-- `IS_RESERVED_KEYS {DiscN, DiscS, ActionKeyTop}`, section 2 of 95_test_vectors.md. -/
theorem test_isReservedKeys_without_a_pair : answer 0x010000101000000000016#84 = some 0x100000000000#48 := by decide

/-- `IS_RESERVED_KEYS {DiscNNE, Keypad1, Keypad9}`, section 2 of 95_test_vectors.md. -/
theorem test_isReservedKeys_fine_bit : answer 0x002020002000000000016#84 = some 0x000000000000#48 := by decide

/-- `IS_RESERVED_BYTE 0xA5`, section 2 of 95_test_vectors.md. -/
theorem test_isReservedByte_listed : answer 0x00000000000000000A507#84 = some 0x100000000000#48 := by decide

/-- `IS_RESERVED_BYTE 0xA7`, section 2 of 95_test_vectors.md. -/
theorem test_isReservedByte_near_miss : answer 0x00000000000000000A707#84 = some 0x000000000000#48 := by decide

/-! ### Witnesses: each statement's hypotheses can be met -/

/-- A state after reset with these requests pending. -/
def pending (ws : List RequestWord) : State := { State.reset with requests := ws }

/-- Parameters with a table of their own: entry 0xA5 is {Keypad1}, every other entry is empty. -/
def tableParams : Params :=
  { defaultParams with goldenDecode := some (Vector.ofFn fun i => if i.val = 0xA5 then keyBit .keypad1 else 0#36) }

theorem default_params_legal : ParamsLegal (pending [0x00000000000000000A500#84]).params where
  markerFree := by decide
  literals := by decide
  agrees := by decide
  notInjective := ⟨0x00#8, 0x10#8, by decide⟩
  oracle := by decide
  canonical := by decide

theorem witness_TablesHoldThePrintedEntries : isMarker .noneActive = true := by decide

theorem witness_DiscRingIsCyclic : isDisc .discNNW = true ∧ ring .discNNW = 15 := by decide

theorem witness_StepKeepsTheInvariant :
    Inv (pending [0x00000000000000000A500#84]) ∧
      step (pending [0x00000000000000000A500#84]) =
        .next { pending [] with response := some ⟨0x10000101#36, 0#8, false, false, 0#2⟩ } :=
  ⟨⟨default_params_legal, by rintro r ⟨⟩⟩, rfl⟩

theorem witness_StepFrame :
    step (pending [0x5#84, 0x1#84]) = .next { pending [0x1#84] with response := some ⟨0#36, 0#8, false, true, 1#2⟩ } :=
  rfl

theorem witness_StepRunsTheDecodedRequest : (pending [0x5#84, 0x1#84]).requests = 0x5#84 :: [0x1#84] := rfl

theorem witness_StepWithoutRequestIdles : (pending []).requests = [] := rfl

theorem witness_PlacedWordRunsNext : decodeTableWord 8 0x15 = some (.expand (some 0#36) 0#32) := by decide

theorem witness_EveryRequestGetsAResponse : (pending [0x6#84]).requests = 0x6#84 :: [] := rfl

theorem witness_RequestsHaveNoSideEffect : (0x6#84 : RequestWord) = 0x6#84 := rfl

theorem witness_ResponseDependsOnTheRequestAlone :
    (pending [0x6#84]).params = ({ pending [0x6#84, 0x5#84] with response := some (boolResponse true) } : State).params ∧
      (pending [0x6#84]).requests = 0x6#84 :: [] ∧
      ({ pending [0x6#84, 0x5#84] with response := some (boolResponse true) } : State).requests = 0x6#84 :: [0x5#84] :=
  ⟨rfl, rfl, rfl⟩

theorem witness_RequestsAreServedIndependently : [0x5#84, 0x1#84].Perm ([0x1#84, 0x5#84] : List RequestWord) := by
  decide

/-- Two words that differ in every bit DECODE does not read. -/
theorem witness_UnreadRequestBitsAreIgnored :
    (0xFFFFFFFFFFFFFFFFFA5F8#84 &&& 0xFF07#84 : RequestWord) = 0x00000000000000000A500#84 &&& 0xFF07#84 ∧
      (0xFFFFFFFFFFFFFFFFFA5F8#84 : RequestWord).toNat % 8 = 0 := by decide

theorem witness_EveryOpValueNamesItsOperation :
    (0x0#84 : RequestWord).toNat % 8 = 0 ∧ (0x19#84 : RequestWord).toNat % 8 = 1 ∧
      (0xA#84 : RequestWord).toNat % 8 = 2 ∧ (0xFB#84 : RequestWord).toNat % 8 = 3 ∧
      (0x4#84 : RequestWord).toNat % 8 = 4 ∧ (0x5#84 : RequestWord).toNat % 8 = 5 ∧
      (0xFFFFFFFFFFFFFFFFFFFFE#84 : RequestWord).toNat % 8 = 6 ∧
      (0xFFFFFFFFFFFFFFFFFFFFF#84 : RequestWord).toNat % 8 = 7 := by decide

/-- The table of R105 has rows for the first and the last value of RAW[4:0]. -/
theorem witness_DecodeDiscFollowsTheFullTable : (0xE0#8 : Byte).toNat % 32 = 0 ∧ (0xFF#8 : Byte).toNat % 32 = 31 := by
  decide

/-- A grid value with its fine bit, two rows, and no column. -/
theorem witness_KeypadNeedsOneHotRowAndColumn :
    (0x0000000000000000091FB#84 : RequestWord).toNat % 8 = 3 ∧
      (0x98#8 : Byte).extractLsb' 0 4 = 8#4 ∧ (0x98#8 : Byte).extractLsb' 5 3 = 4#3 ∧
      (0x83#8 : Byte).extractLsb' 0 4 ∉ [1#4, 2#4, 4#4, 8#4] ∧ (0x11#8 : Byte).extractLsb' 5 3 ∉ [1#3, 2#3, 4#3] := by
  decide

theorem witness_ActionButtonsFollowTheColumnLines :
    (0x4#84 : RequestWord).toNat % 8 = 4 ∧ (0xBF#8 : Byte).extractLsb' 5 3 = 0b101#3 ∧
      (0x60#8 : Byte).extractLsb' 5 3 = 0b011#3 ∧ (0xC0#8 : Byte).extractLsb' 5 3 = 0b110#3 ∧
      (0xFF#8 : Byte).extractLsb' 5 3 = 0b111#3 ∧
      (0x9F#8 : Byte).extractLsb' 5 3 ∈ [0b000#3, 0b001#3, 0b010#3, 0b100#3] := by decide

theorem witness_NoMatchIsAnEmptyResult :
    (∀ k : Key, isKeypad k = true → 0x83#8 &&& 0xEF#8 ≠ code k) ∧
      ∀ k : Key, isAction k = true → 0x83#8 &&& code k ≠ code k :=
  ⟨forall_key_iff.2 (by decide), forall_key_iff.2 (by decide)⟩

/-- Under the default table 0x91 shows a keypad key and 0xE9 does not. -/
theorem witness_DefaultDecodeComposesTheFamilies :
    State.reset.params.goldenDecode = none ∧ keypadSet 0x91#8 ≠ 0#36 ∧ keypadSet 0xE9#8 = 0#36 := by decide

theorem witness_DecodeAnswersTheGivenTable :
    tableParams.goldenDecode =
        some (Vector.ofFn fun i => if i.val = 0xA5 then keyBit .keypad1 else 0#36) ∧
      (Vector.ofFn fun i => if i.val = 0xA5 then keyBit .keypad1 else 0#36 : Vector KeySet 256)[(0xA5#8).toNat]? =
        some (keyBit .keypad1) := ⟨rfl, by simp⟩

theorem witness_DecodeLiteralsHoldForEveryLegalTable :
    ParamsLegal (pending [0x00000000000000000A500#84]).params := default_params_legal

theorem witness_DefaultParametersAreLegal :
    ({ defaultParams with decodeDiscAllMatches := true } : Params).goldenDecode = none ∧
      ({ defaultParams with decodeDiscAllMatches := true } : Params).reservedBytes = [0xA5#8] := ⟨rfl, rfl⟩

theorem witness_ExactlyEightBytesDecodeToNothing : State.reset.params.goldenDecode = none := rfl

theorem witness_SingleKeysSurviveTheRoundTrip :
    State.reset.params.goldenDecode = none ∧ State.reset.params.decodeDiscAllMatches = false ∧
      isReal .actionKeyBottomRight = true := by decide

/-- A set of Markers only, and a set with a real key beside a Marker. -/
theorem witness_EncodeOrsThePatternsOfTheRealKeys :
    (∀ k : Key, hasKey (keySetOf [.none, .keypadActive]) k = true → isReal k = false) ∧
      ∃ k : Key, hasKey (keySetOf [.keypad5, .discActive]) k = true ∧ isReal k = true :=
  ⟨forall_key_iff.2 (by decide), .keypad5, by decide⟩

theorem witness_EncodeOrComposesKeySets :
    (∃ k, hasKey (keySetOf [.discS]) k = true ∧ isReal k = true) ∧
      ∃ k, hasKey (keySetOf [.actionKeyTop, .none]) k = true ∧ isReal k = true :=
  ⟨⟨.discS, by decide⟩, ⟨.actionKeyTop, by decide⟩⟩

theorem witness_ReservedPairsShareOneRegisterValue : (Key.keypad3, Key.keypad7) ∈ reservedPairs := by decide

theorem witness_ExpandReadsOnlyTheClampedRadius :
    min (0x80000000#32 : RadiusField).toInt.natAbs 7 = min (7#32 : RadiusField).toInt.natAbs 7 := by decide

theorem witness_ExpandOfOneDirection :
    isDisc .discN = true ∧ 7 ≤ (0xFFFFFFF9#32 : RadiusField).toInt.natAbs := by decide

theorem witness_ReencodingGivesBack166Bytes :
    State.reset.params.goldenDecode = none ∧ State.reset.params.decodeDiscAllMatches = false := ⟨rfl, rfl⟩

theorem witness_OnlyExpandOfAbsentHasAFaultOutcome :
    (∃ radius : RadiusField, Instr.expand none 7#32 = .expand none radius) ∧
      (∀ radius : RadiusField, Instr.expand (some 0#36) 7#32 ≠ .expand none radius) ∧
      (pending [0x5#84, 0x15#84]).requests = 0x5#84 :: [0x15#84] ∧
      ((0x5#84 : RequestWord).toNat % 8 = 5 ∧ (0x5#84 : RequestWord).getLsbD 4 = false) ∧
      ¬ ((0x15#84 : RequestWord).toNat % 8 = 5 ∧ (0x15#84 : RequestWord).getLsbD 4 = false) :=
  ⟨⟨7#32, rfl⟩, fun _ h => by simp at h, rfl, by decide, by decide⟩

theorem witness_NoOtherCauseRaisesAnError : (pending [0x5#84]).requests = 0x5#84 :: [] := rfl

theorem witness_ByteIsReservedWhenListed :
    (pending []).params.reservedBytes = State.reset.params.reservedBytes := rfl

theorem witness_OracleEntriesAndAgreementHold :
    State.reset.params.goldenDecode = none ∧ State.reset.params.reservedBytes = [0xA5#8] := ⟨rfl, rfl⟩

theorem witness_ReservedKeySetsContainAMinimalOne : State.reset.params.reservedBytes = [0xA5#8] := rfl

theorem witness_MarkersAreNeverOutputAndIgnoredOnInput :
    goldenMarkerFree State.reset.params ∧ isMarker .keypadActive = true := by decide

end Sys2Proof.Tests.Slice0
end

/-! ## The state and the key vocabulary: 10_state.md R20 to R26 -/

namespace Sys2Proof.Machine

/-! ### Families of keys (R21, R26) -/

theorem isKeypad_iff (k : Key) : isKeypad k = true ↔ 16 ≤ keyIndex k ∧ keyIndex k ≤ 27 := by
  unfold isKeypad keyFamily
  split_ifs <;> simp <;> omega

theorem isAction_iff (k : Key) : isAction k = true ↔ 28 ≤ keyIndex k ∧ keyIndex k ≤ 30 := by
  unfold isAction keyFamily
  split_ifs <;> simp <;> omega

/-- A key is a Marker or real, never both. -/
theorem isMarker_eq_false_iff (k : Key) : isMarker k = false ↔ isReal k = true := by
  simp [isReal]

theorem isReal_of_isDisc {k : Key} (h : isDisc k = true) : isReal k = true := by
  rw [isDisc_iff] at h
  rw [isReal_iff]
  omega

theorem isReal_of_isKeypad {k : Key} (h : isKeypad k = true) : isReal k = true := by
  rw [isKeypad_iff] at h
  rw [isReal_iff]
  omega

theorem isReal_of_isAction {k : Key} (h : isAction k = true) : isReal k = true := by
  rw [isAction_iff] at h
  rw [isReal_iff]
  omega

/-- Settles O3: each predicate is the index range of its family. -/
theorem classificationFollowsTheIndex : Obligations.ClassificationFollowsTheIndex := by
  refine ⟨fun k => ⟨?disc, isKeypad_iff k, isAction_iff k, ?marker, ?real, mem_realKeys k⟩, by decide⟩
  case disc => rw [isDisc_iff, Nat.lt_succ_iff]
  case marker =>
    have hlt := keyIndex_lt k
    rw [isMarker_iff]
    omega
  case real => rw [Bool.not_eq_true, isMarker_eq_false_iff]

/-! ### The ring of the Disc values (R22) -/

theorem ringWrap_lt (i : Int) : ringWrap i < 16 := by
  unfold ringWrap
  omega

theorem ringWrap_cast (i : Int) : (ringWrap i : Int) = i % 16 :=
  Int.toNat_of_nonneg (Int.emod_nonneg i (by decide))

@[simp] theorem isDisc_disc (i : Int) : isDisc (disc i) = true := by
  rw [isDisc_iff, keyIndex_disc]
  exact ringWrap_lt i

theorem ring_disc (i : Int) : (ring (disc i) : Int) = i % 16 := by
  rw [ring, keyIndex_disc, ringWrap_cast]

/-- `disc` undoes `ring` on the Disc values. -/
theorem disc_ring {d : Key} (h : isDisc d = true) : disc (ring d : Int) = d := by
  have hlt : ring d < 16 := (isDisc_iff d).1 h
  have hring := ring_disc (ring d)
  apply keyIndex_injective
  change ring (disc (ring d)) = ring d
  omega

/-- Settles O4, through the ring index of `disc i` and its inverse. -/
theorem discRingIsCyclic : Obligations.DiscRingIsCyclic :=
  ⟨by decide, fun i => ⟨isDisc_disc i, ring_disc i⟩, fun _ hd => ⟨rfl, disc_ring hd, rfl⟩⟩

/-! ### Operations are functions of their operands and the parameters (R20) -/

/-- Settles O15: the response is `responseOf` the parameters and the operation. -/
theorem operationsArePureFunctions : Obligations.OperationsArePureFunctions := by
  intro i s
  refine ⟨responseOf s.params i, exec_eq_responseOf i s, fun s' hparams => ?_⟩
  rw [← hparams]
  exact exec_eq_responseOf i s'

/-! ### The families each operation answers from -/

theorem isDisc_singleDir (c : Nat) (fine : Bool) : isDisc (singleDir c fine) = true := by
  cases fine <;> exact isDisc_disc _

theorem isDisc_pairDir (p : Nat × Nat) (fine : Bool) : isDisc (pairDir p fine) = true := by
  cases fine <;> exact isDisc_disc _

theorem isDisc_of_mem_singleDirs {lines : List Nat} {raw : Byte} {k : Key} (h : k ∈ singleDirs lines raw) :
    isDisc k = true := by
  obtain ⟨c, -, rfl⟩ := List.mem_map.1 h
  exact isDisc_singleDir c (rawFine raw)

theorem isDisc_of_mem_pairDirs {raw : Byte} {k : Key} (h : k ∈ pairDirs raw) : isDisc k = true := by
  obtain ⟨p, -, rfl⟩ := List.mem_map.1 h
  exact isDisc_pairDir p (rawFine raw)

/-- A union of pair and single directions holds Disc values only. -/
theorem isDisc_of_hasKey_dirs {lines : List Nat} {raw : Byte} {k : Key}
    (h : hasKey (keySetOf (pairDirs raw) ||| keySetOf (singleDirs lines raw)) k = true) : isDisc k = true := by
  rw [hasKey_or, Bool.or_eq_true, hasKey_keySetOf, hasKey_keySetOf] at h
  exact h.elim isDisc_of_mem_pairDirs isDisc_of_mem_singleDirs

/-- DECODE_DISC answers Disc values only, in both modes (R104). -/
theorem isDisc_of_hasKey_discSet {raw : Byte} {mode : DiscMode} {k : Key}
    (h : hasKey (discSet raw mode) k = true) : isDisc k = true := by
  unfold discSet at h
  split at h
  · simp at h
  · cases mode with
    | partialMatch => exact isDisc_of_hasKey_dirs h
    | allMatches => exact isDisc_of_hasKey_dirs h

theorem isKeypad_of_keypadAt {row column : Nat} {k : Key} (h : keypadAt row column = some k) :
    isKeypad k = true := by
  have grid : ∀ e ∈ keypadGrid, isKeypad e.2.2 = true := by decide
  obtain ⟨e, hfind, rfl⟩ := Option.map_eq_some_iff.1 h
  exact grid e (List.mem_of_find?_eq_some hfind)

theorem isKeypad_of_keypadKey {raw : Byte} {k : Key} (h : keypadKey raw = some k) : isKeypad k = true := by
  unfold keypadKey at h
  split at h
  · exact isKeypad_of_keypadAt h
  · cases h

/-- DECODE_KEYPAD answers Keypad values only (R120). -/
theorem isKeypad_of_hasKey_keypadSet {raw : Byte} {k : Key} (h : hasKey (keypadSet raw) k = true) :
    isKeypad k = true := by
  unfold keypadSet at h
  split at h
  next l hkey =>
    obtain rfl := (hasKey_keyBit l k).1 h
    exact isKeypad_of_keypadKey hkey
  next => simp at h

/-- DECODE_ACTION answers Action values only (R121). -/
theorem isAction_of_hasKey_actionSet {raw : Byte} {k : Key} (h : hasKey (actionSet raw) k = true) :
    isAction k = true := by
  have buttons : ∀ l : List Key, (∀ a ∈ l, isAction a = true) → hasKey (keySetOf l) k = true → isAction k = true :=
    fun l hl hk => hl k ((hasKey_keySetOf l k).1 hk)
  unfold actionSet at h
  split_ifs at h
  case neg => simp at h
  all_goals exact buttons _ (by decide) h

/-- EXPAND answers Disc values only (R171). -/
theorem isDisc_of_hasKey_expandSet {ks : KeySet} {radius : RadiusField} {k : Key}
    (h : hasKey (expandSet ks radius) k = true) : isDisc k = true := by
  obtain ⟨d, -, -, hk⟩ := (hasKey_expandSet ks radius k).1 h
  obtain ⟨off, -, rfl⟩ := (mem_sector _ d k).1 hk
  exact isDisc_disc _

/-! ### No Marker in a response (R25) -/

/-- KS[35:31] is zero when every key of the set is real. -/
theorem markerBits_eq_zero_of_isReal {ks : KeySet} (h : ∀ k, hasKey ks k = true → isReal k = true) :
    markerBits ks = 0#5 := by
  rw [markerBits_eq_zero_iff]
  intro k hmarker
  exact Bool.eq_false_iff.2 fun hmem => by simpa [isReal, hmarker] using h k hmem

@[simp] theorem markerBits_zero : markerBits 0#36 = 0#5 := by decide

/-- Under P1 of R141 every response is free of Markers. -/
theorem responseOf_markerFree {p : Params} (hp : goldenMarkerFree p) (i : Instr) :
    markerBits (responseOf p i).outKs = 0#5 := by
  cases i with
  | decode raw => exact hp raw
  | decodeDisc raw mode =>
    exact markerBits_eq_zero_of_isReal fun _ h => isReal_of_isDisc (isDisc_of_hasKey_discSet h)
  | decodeKeypad raw =>
    exact markerBits_eq_zero_of_isReal fun _ h => isReal_of_isKeypad (isKeypad_of_hasKey_keypadSet h)
  | decodeAction raw =>
    exact markerBits_eq_zero_of_isReal fun _ h => isReal_of_isAction (isAction_of_hasKey_actionSet h)
  | expand ks radius =>
    cases ks with
    | none => exact markerBits_zero
    | some ks => exact markerBits_eq_zero_of_isReal fun _ h => isReal_of_isDisc (isDisc_of_hasKey_expandSet h)
  | encode ks => exact markerBits_zero
  | isReservedKeys ks => exact markerBits_zero
  | isReservedByte raw => exact markerBits_zero

/-! ### Markers in a key-set operand are ignored (R25) -/

/-- The mask of bits 30:0 is the set REAL. -/
theorem hasKey_realMask (k : Key) : hasKey 0x7FFFFFFF#36 k = isReal k :=
  forall_key_iff.2 (by decide : ∀ k ∈ allKeys, hasKey 0x7FFFFFFF#36 k = isReal k) k

/-- Clearing bits 35:31 of a key set keeps its real keys. -/
theorem hasKey_and_realMask (ks : KeySet) {k : Key} (h : isReal k = true) :
    hasKey (ks &&& 0x7FFFFFFF#36) k = hasKey ks k := by
  rw [hasKey_and, hasKey_realMask, h, Bool.and_true]

theorem encodeKeys_and_realMask (ks : KeySet) :
    encodeKeys (some (ks &&& 0x7FFFFFFF#36)) = encodeKeys (some ks) :=
  registerValue_congr fun _ => hasKey_and_realMask ks

theorem keysReserved_and_realMask (p : Params) (ks : KeySet) :
    keysReserved p (some (ks &&& 0x7FFFFFFF#36)) = keysReserved p (some ks) :=
  congrArg (byteReserved p) (encodeKeys_and_realMask ks)

/-- Only the Disc values of a set matter to EXPAND (R171). -/
theorem expandSet_congr {a b : KeySet} (h : ∀ k, isDisc k = true → hasKey a k = hasKey b k)
    (radius : RadiusField) : expandSet a radius = expandSet b radius := by
  have e : discKeysOf a = discKeysOf b :=
    List.filter_congr fun k hk => h k ((mem_discKeys k).1 hk)
  rw [expandSet, expandSet, e]

theorem expandSet_and_realMask (ks : KeySet) (radius : RadiusField) :
    expandSet (ks &&& 0x7FFFFFFF#36) radius = expandSet ks radius :=
  expandSet_congr (fun _ h => hasKey_and_realMask ks (isReal_of_isDisc h)) radius

/-- The five Markers by name (R21). -/
theorem isMarker_iff_mem (k : Key) :
    isMarker k = true ↔ k ∈ [Key.none, .noneActive, .discActive, .actionKeyActive, .keypadActive] := by
  cases k <;> decide

/-- Settles O53: no response holds a Marker, and the three operations with a key-set operand read its real keys only. -/
theorem markersAreNeverOutputAndIgnoredOnInput : Obligations.MarkersAreNeverOutputAndIgnoredOnInput := by
  refine ⟨isMarker_iff_mem, fun k hk => (isMarker_eq_false_iff k).2 ((mem_realKeys k).1 hk), ?output, ?input⟩
  case output =>
    intro i s hp
    exact ⟨responseOf s.params i, exec_eq_responseOf i s,
      (markerBits_eq_zero_iff _).1 (responseOf_markerFree hp i)⟩
  case input =>
    intro s ks radius
    refine ⟨byteResponse (encodeKeys (some ks)), keysResponse (expandSet ks radius),
      boolResponse (keysReserved s.params (some ks)), ?_⟩
    simp only [exec_eq_responseOf, responseOf, encodeKeys_and_realMask, expandSet_and_realMask,
      keysReserved_and_realMask, and_self]

end Sys2Proof.Machine

/-! ## Requests and their effects: 20_memory.md R54 -/

namespace Sys2Proof.Machine

/-- A step with a pending request takes it off the host's list and drives the response of the operation it decodes to;
nothing else changes. -/
theorem step_of_requests_eq_cons {s : State} {w : RequestWord} {rest : List RequestWord}
    (h : s.requests = w :: rest) :
    step s = .next { s with requests := rest, response := some (responseOf s.params (decode w)) } := by
  have htake : takeRequest s = some (w, { s with requests := rest }) :=
    (takeRequest_some_iff s _ w).2 ⟨rest, h, rfl⟩
  rw [step, htake]
  exact exec_eq_responseOf (decode w) { s with requests := rest }

/-- Settles O13: a step leaves the parameters and replaces the whole response, so nothing of the first request is left
after the second, and both responses are `responseOf` the same parameters. -/
theorem requestsHaveNoSideEffect : Obligations.RequestsHaveNoSideEffect := by
  intro s w w' rest
  refine ⟨{ s with requests := w' :: rest, response := some (responseOf s.params (decode w)) },
    { s with requests := rest, response := some (responseOf s.params (decode w')) },
    step_of_requests_eq_cons rfl, step_of_requests_eq_cons rfl, step_of_requests_eq_cons rfl, ?sameResponse⟩
  rintro rfl
  rfl

end Sys2Proof.Machine

/-! ## The keypad and action-button decoder: 42_keypad_action_decoder.md R120 to R124 -/

namespace Sys2Proof

/-! ### The OP field (R81, R82) -/

theorem reqOp_toNat (w : RequestWord) : (reqOp w).toNat = w.toNat % 8 := by
  simp [reqOp, BitVec.extractLsb'_toNat]

theorem reqOp_eq_of_toNat_mod {w : RequestWord} {op : BitVec 3} (h : w.toNat % 8 = op.toNat) : reqOp w = op :=
  BitVec.eq_of_toNat_eq ((reqOp_toNat w).trans h)

theorem decode_eq_decodeKeypad {w : RequestWord} (h : w.toNat % 8 = 3) : decode w = .decodeKeypad (reqRaw w) := by
  have hop : reqOp w = 3#3 := reqOp_eq_of_toNat_mod h
  simp [decode, hop]

theorem decode_eq_decodeAction {w : RequestWord} (h : w.toNat % 8 = 4) : decode w = .decodeAction (reqRaw w) := by
  have hop : reqOp w = 4#3 := reqOp_eq_of_toNat_mod h
  simp [decode, hop]

end Sys2Proof

namespace Sys2Proof.Machine

open Sys2Proof.Statements (gridRows)

/-! ### Key sets -/

theorem keySetOf_singleton (k : Key) : keySetOf [k] = keyBit k := BitVec.or_zero

theorem keySet_eq_zero_of_forall_hasKey {ks : KeySet} (h : ∀ k, ¬ hasKey ks k = true) : ks = 0#36 :=
  keySet_ext fun k => by simp [h k]

/-! ### The fields of RAW as patterns of the register (R70) -/

/-- Only the column lines of RAW meet a pattern of column lines. -/
theorem and_columnPattern (raw : Byte) (col : BitVec 3) :
    raw &&& col.setWidth 8 <<< 5 = (rawCol raw &&& col).setWidth 8 <<< 5 := by
  apply BitVec.eq_of_getLsbD_eq
  intro i hi
  by_cases hcol : i < 5
  · simp [hcol]
  · have hline : i - 5 < 3 := by omega
    have hbit : 5 + (i - 5) = i := by omega
    simp [rawCol, hline, hbit, Bool.and_assoc, Bool.and_left_comm]

/-- Only the row lines of RAW meet a pattern of row lines. -/
theorem and_rowPattern (raw : Byte) (row : BitVec 4) :
    raw &&& row.setWidth 8 = (rawNib raw &&& row).setWidth 8 := by
  apply BitVec.eq_of_getLsbD_eq
  intro i hi
  by_cases hrow : i < 4
  · simp [rawNib, hi, hrow]
  · have hbit : row.getLsbD i = false := row.getLsbD_of_ge i (not_lt.1 hrow)
    simp [hbit]

/-- RAW with its fine bit cleared is its column field over its row field. -/
theorem and_clearFine_eq (raw : Byte) :
    raw &&& 0xEF#8 = (rawCol raw).setWidth 8 <<< 5 ||| (rawNib raw).setWidth 8 :=
  calc raw &&& 0xEF#8
    _ = raw &&& ((0b111#3).setWidth 8 <<< 5 ||| (0b1111#4).setWidth 8) := rfl
    _ = (rawCol raw &&& 0b111#3).setWidth 8 <<< 5 ||| (rawNib raw &&& 0b1111#4).setWidth 8 := by
      rw [BitVec.and_or_distrib_left, and_columnPattern, and_rowPattern]
    _ = (rawCol raw).setWidth 8 <<< 5 ||| (rawNib raw).setWidth 8 := by
      rw [show 0b111#3 = BitVec.allOnes 3 from rfl, show 0b1111#4 = BitVec.allOnes 4 from rfl,
        BitVec.and_allOnes, BitVec.and_allOnes]

/-! ### DECODE_KEYPAD (R120) -/

theorem onehot_row_iff (row : BitVec 4) : onehot row = true ↔ row ∈ [1#4, 2#4, 4#4, 8#4] := by
  revert row
  decide

theorem onehot_col_iff (col : BitVec 3) : onehot col = true ↔ col ∈ [1#3, 2#3, 4#3] := by
  revert col
  decide

theorem exists_gridRow_of_onehot {row : BitVec 4} {col : BitVec 3} (hrow : onehot row = true)
    (hcol : onehot col = true) : ∃ e ∈ gridRows, row = e.1 ∧ col = e.2.1 := by
  have grid : ∀ r ∈ [1#4, 2#4, 4#4, 8#4], ∀ c ∈ [1#3, 2#3, 4#3], ∃ e ∈ gridRows, r = e.1 ∧ c = e.2.1 := by decide
  exact grid row ((onehot_row_iff row).1 hrow) col ((onehot_col_iff col).1 hcol)

/-- Each row of the printed grid is one-hot in both fields and selects its key. -/
theorem gridRow_selects {e : BitVec 4 × BitVec 3 × Key} (he : e ∈ gridRows) :
    onehot e.1 = true ∧ onehot e.2.1 = true ∧ keypadAt (setBitIndex e.1) (5 + setBitIndex e.2.1) = some e.2.2 := by
  revert e
  decide

/-- The keypad key of RAW is the key of the printed grid at its row and column fields, RAW[4] not read. -/
theorem keypadKey_eq_some_iff (raw : Byte) (k : Key) :
    keypadKey raw = some k ↔ ∃ e ∈ gridRows, rawNib raw = e.1 ∧ rawCol raw = e.2.1 ∧ k = e.2.2 := by
  constructor
  · intro h
    unfold keypadKey at h
    split at h
    next honehot =>
      obtain ⟨hrow, hcol⟩ := Bool.and_eq_true_iff.1 honehot
      obtain ⟨e, he, hnib, hcolumn⟩ := exists_gridRow_of_onehot hrow hcol
      obtain ⟨-, -, hkey⟩ := gridRow_selects he
      rw [hnib, hcolumn, hkey] at h
      exact ⟨e, he, hnib, hcolumn, (Option.some.inj h).symm⟩
    next => cases h
  · rintro ⟨e, he, hnib, hcolumn, rfl⟩
    obtain ⟨hrow, hcol, hkey⟩ := gridRow_selects he
    simp [keypadKey, hnib, hcolumn, hrow, hcol, hkey]

theorem keypadSet_of_keypadKey_eq_some {raw : Byte} {k : Key} (h : keypadKey raw = some k) :
    keypadSet raw = keySetOf [k] := by
  rw [keypadSet, h, keySetOf_singleton]

/-- Outside the one-hot rows and columns there is no keypad key. -/
theorem keypadSet_eq_zero_of_not_onehot {raw : Byte}
    (h : ¬ onehot (rawNib raw) = true ∨ ¬ onehot (rawCol raw) = true) : keypadSet raw = 0#36 := by
  have hkey : keypadKey raw = none := by
    rw [keypadKey, if_neg]
    rwa [Bool.and_eq_true, not_and_or]
  rw [keypadSet, hkey]

/-- Settles O27: a row of the grid selects its key, and a field that is not one-hot selects none. -/
theorem keypadNeedsOneHotRowAndColumn : Obligations.KeypadNeedsOneHotRowAndColumn := by
  refine ⟨fun _ => decode_eq_decodeKeypad, fun s raw =>
    ⟨keypadSet raw, exec_eq_responseOf (.decodeKeypad raw) s, ?oneHot, ?notOneHot⟩⟩
  case oneHot =>
    intro e he hrow hcol
    exact keypadSet_of_keypadKey_eq_some ((keypadKey_eq_some_iff raw e.2.2).2 ⟨e, he, hrow, hcol, rfl⟩)
  case notOneHot =>
    rintro (hrow | hcol)
    · exact keypadSet_eq_zero_of_not_onehot (.inl (mt (onehot_row_iff _).1 hrow))
    · exact keypadSet_eq_zero_of_not_onehot (.inr (mt (onehot_col_iff _).1 hcol))

/-! ### DECODE_ACTION (R121) -/

theorem actionSet_eq_zero_of_rawCol {raw : Byte} (h : rawCol raw ∈ [0b000#3, 0b001#3, 0b010#3, 0b100#3]) :
    actionSet raw = 0#36 := by
  have noPair : ∀ c ∈ [0b000#3, 0b001#3, 0b010#3, 0b100#3],
      c ≠ 0b101#3 ∧ c ≠ 0b011#3 ∧ c ≠ 0b110#3 ∧ c ≠ 0b111#3 := by decide
  obtain ⟨htop, hleft, hright, hall⟩ := noPair _ h
  rw [actionSet, if_neg htop, if_neg hleft, if_neg hright, if_neg hall]

/-- Settles O29: the eight patterns of RAW[7:5], one by one. -/
theorem actionButtonsFollowTheColumnLines : Obligations.ActionButtonsFollowTheColumnLines := by
  refine ⟨fun _ => decode_eq_decodeAction, fun s raw =>
    ⟨actionSet raw, exec_eq_responseOf (.decodeAction raw) s, ?top, ?bottomLeft, ?bottomRight, ?allThree,
      actionSet_eq_zero_of_rawCol⟩⟩
  all_goals
    intro h
    have hcol : rawCol raw = _ := h
    simp [actionSet, hcol]

/-! ### No match is an empty result (R124) -/

/-- Each row of the printed grid spells the code of its key (R74). -/
theorem code_gridRow {e : BitVec 4 × BitVec 3 × Key} (he : e ∈ gridRows) :
    e.2.1.setWidth 8 <<< 5 ||| e.1.setWidth 8 = code e.2.2 := by
  revert e
  decide

/-- A key that DECODE_KEYPAD answers has RAW without its fine bit as its code. -/
theorem code_of_hasKey_keypadSet {raw : Byte} {k : Key} (h : hasKey (keypadSet raw) k = true) :
    raw &&& 0xEF#8 = code k := by
  unfold keypadSet at h
  split at h
  next l hkey =>
    obtain rfl := (hasKey_keyBit l k).1 h
    obtain ⟨e, he, hrow, hcol, rfl⟩ := (keypadKey_eq_some_iff raw k).1 hkey
    rw [and_clearFine_eq, hrow, hcol, code_gridRow he]
  next => simp at h

/-- The code of a button is a pattern of column lines only (R75). -/
theorem code_eq_columnPattern {k : Key} (h : isAction k = true) : code k = (rawCol (code k)).setWidth 8 <<< 5 := by
  have buttons : ∀ a ∈ allKeys, isAction a = true → code a = (rawCol (code a)).setWidth 8 <<< 5 := by decide
  exact buttons k (mem_allKeys k) h

/-- A button's pattern is in RAW when its column lines are. -/
theorem and_code_of_rawCol {raw : Byte} {k : Key} (hk : isAction k = true)
    (h : rawCol raw &&& rawCol (code k) = rawCol (code k)) : raw &&& code k = code k := by
  rw [code_eq_columnPattern hk, and_columnPattern, h]

/-- The pattern of a button that DECODE_ACTION answers is in RAW. -/
theorem code_of_hasKey_actionSet {raw : Byte} {k : Key} (h : hasKey (actionSet raw) k = true) :
    raw &&& code k = code k := by
  have lines : ∀ l : List Key, (∀ a ∈ l, rawCol raw &&& rawCol (code a) = rawCol (code a)) →
      hasKey (keySetOf l) k = true → rawCol raw &&& rawCol (code k) = rawCol (code k) :=
    fun l hl hk => hl k ((hasKey_keySetOf l k).1 hk)
  apply and_code_of_rawCol (isAction_of_hasKey_actionSet h)
  unfold actionSet at h
  split_ifs at h with htop hleft hright hall
  · exact lines [.actionKeyTop] (by rw [htop]; decide) h
  · exact lines [.actionKeyBottomLeft] (by rw [hleft]; decide) h
  · exact lines [.actionKeyBottomRight] (by rw [hright]; decide) h
  · exact lines [.actionKeyTop, .actionKeyBottomLeft, .actionKeyBottomRight] (by rw [hall]; decide) h
  · simp at h

/-- Settles O31: what either operation answers has its pattern in RAW, so without a pattern the set is empty. -/
theorem noMatchIsAnEmptyResult : Obligations.NoMatchIsAnEmptyResult := by
  intro s raw
  refine ⟨keypadSet raw, actionSet raw, exec_eq_responseOf (.decodeKeypad raw) s,
    exec_eq_responseOf (.decodeAction raw) s, fun noCode => ?keypad, fun noPattern => ?action⟩
  case keypad =>
    exact keySet_eq_zero_of_forall_hasKey fun k hk =>
      noCode k (isKeypad_of_hasKey_keypadSet hk) (code_of_hasKey_keypadSet hk)
  case action =>
    exact keySet_eq_zero_of_forall_hasKey fun k hk =>
      noPattern k (isAction_of_hasKey_actionSet hk) (code_of_hasKey_actionSet hk)

end Sys2Proof.Machine

/-! ## The codec: 43_codec.md R142 to R144 -/

namespace Sys2Proof.Machine

/-! ### The register value of a key set (R142, R143) -/

/-- Without a real key there is no pattern to OR: the register value is the idle sentinel. -/
theorem registerValue_eq_idleSentinel {ks : KeySet} (h : ∀ k, hasKey ks k = true → isReal k = false) :
    registerValue ks = idleSentinel :=
  if_pos ((realKeysOf_isEmpty_iff ks).2 h)

/-- With a real key the register value is the OR of the patterns. -/
theorem registerValue_eq_orCodes {ks : KeySet} (h : ∃ k, hasKey ks k = true ∧ isReal k = true) :
    registerValue ks = orCodes (realKeysOf ks) := by
  obtain ⟨k, hmem, hreal⟩ := h
  have hne : realKeysOf ks ≠ [] := List.ne_nil_of_mem ((mem_realKeysOf ks k).2 ⟨hreal, hmem⟩)
  exact if_neg (mt List.isEmpty_iff.1 hne)

/-- ENCODE answers the register value of its operand and changes nothing else. -/
theorem exec_encode (ks : Option KeySet) (s : State) :
    exec (.encode ks) s = .next { s with response := some (byteResponse (encodeKeys ks)) } :=
  exec_eq_responseOf (.encode ks) s

/-- Settles O40: an absent set encodes to the sentinel outright, and the empty set has no real key. -/
theorem emptyAndAbsentEncodeToTheSentinel : Obligations.EmptyAndAbsentEncodeToTheSentinel := by
  intro s
  have hempty : encodeKeys (some 0#36) = 0xFF#8 :=
    registerValue_eq_idleSentinel fun k hk => by simp at hk
  refine ⟨exec_encode none s, ?empty⟩
  case empty => rw [exec_encode, hempty, byteResponse]

/-! ### The register value of a union (R144) -/

/-- The real keys of a union are those of its parts. -/
theorem mem_realKeysOf_or (a b : KeySet) (k : Key) :
    k ∈ realKeysOf (a ||| b) ↔ k ∈ realKeysOf a ∨ k ∈ realKeysOf b := by
  simp [and_or_left]

/-- The patterns of a union OR together: a bit comes from a key of the one set or of the other. -/
theorem orCodes_realKeysOf_or (a b : KeySet) :
    orCodes (realKeysOf (a ||| b)) = orCodes (realKeysOf a) ||| orCodes (realKeysOf b) := by
  apply BitVec.eq_of_getLsbD_eq
  intro j _
  rw [Bool.eq_iff_iff, BitVec.getLsbD_or, Bool.or_eq_true]
  simp only [orCodes_getLsbD, mem_realKeysOf_or, or_and_right, exists_or]

/-- Two sets with a real key each: the register value of the union is the OR of the register values. The sentinel would
break this, which is why both need a real key. -/
theorem registerValue_or {a b : KeySet} (ha : ∃ k, hasKey a k = true ∧ isReal k = true)
    (hb : ∃ k, hasKey b k = true ∧ isReal k = true) :
    registerValue (a ||| b) = registerValue a ||| registerValue b := by
  have hab : ∃ k, hasKey (a ||| b) k = true ∧ isReal k = true := by
    obtain ⟨k, hmem, hreal⟩ := ha
    exact ⟨k, by rw [hasKey_or, hmem, Bool.true_or], hreal⟩
  rw [registerValue_eq_orCodes ha, registerValue_eq_orCodes hb, registerValue_eq_orCodes hab, orCodes_realKeysOf_or]

/-- Settles O41: ENCODE answers the register value, which composes by OR. -/
theorem encodeOrComposesKeySets : Obligations.EncodeOrComposesKeySets := by
  intro s a b ha hb
  have hunion : encodeKeys (some (a ||| b)) = registerValue a ||| registerValue b := registerValue_or ha hb
  refine ⟨registerValue a, registerValue b, exec_encode (some a) s, exec_encode (some b) s, ?union⟩
  case union => rw [exec_encode, hunion, byteResponse]

end Sys2Proof.Machine

/-! ## The exceptions: 60_exceptions.md R213 -/

namespace Sys2Proof

/-! ### The requests that ask for EXPAND of an absent key set (R78, R81, R82) -/

theorem reqOp_eq_iff (w : RequestWord) (op : BitVec 3) : reqOp w = op ↔ w.toNat % 8 = op.toNat := by
  rw [← BitVec.toNat_inj, reqOp_toNat]

theorem reqKeySet_eq_none_iff (w : RequestWord) : reqKeySet w = none ↔ w.getLsbD 4 = false := by
  simp [reqKeySet, reqKsPresent]

/-- EXPAND is the operation of OP 5 alone; its operands are the fields KS and RADIUS. -/
theorem decode_eq_expand_iff (w : RequestWord) (ks : Option KeySet) (radius : RadiusField) :
    decode w = .expand ks radius ↔ reqOp w = 5#3 ∧ reqKeySet w = ks ∧ reqRadius w = radius := by
  constructor
  · intro h
    unfold decode at h
    split_ifs at h with _ _ _ _ _ hop
    obtain ⟨hks, hradius⟩ := Instr.expand.inj h
    exact ⟨hop, hks, hradius⟩
  · rintro ⟨hop, rfl, rfl⟩
    simp [decode, hop]

theorem decode_eq_expand_none_iff (w : RequestWord) :
    (∃ radius, decode w = .expand none radius) ↔ w.toNat % 8 = 5 ∧ w.getLsbD 4 = false := by
  simp [decode_eq_expand_iff, reqOp_eq_iff, reqKeySet_eq_none_iff]

end Sys2Proof

namespace Sys2Proof.Machine

/-- EXPAND of an absent key set is the one operation whose response has ERR = 1 (R211, R213). -/
theorem responseOf_err_iff (p : Params) (i : Instr) :
    (responseOf p i).err = true ↔ ∃ radius, i = .expand none radius := by
  cases i with
  | expand ks radius => cases ks <;> simp [responseOf]
  | decode | encode | decodeDisc | decodeKeypad | decodeAction | isReservedKeys | isReservedByte => simp [responseOf]

/-- Settles O48: a step answers `responseOf` the decoded operation, which has ERR = 1 for EXPAND of an absent key set
only, and the decoder reads that operation from OP 5 with KS_PRESENT 0 only. -/
theorem noOtherCauseRaisesAnError : Obligations.NoOtherCauseRaisesAnError := by
  intro s w rest hpending
  exact ⟨responseOf s.params (decode w), step_of_requests_eq_cons hpending,
    (responseOf_err_iff s.params (decode w)).trans (decode_eq_expand_none_iff w)⟩

end Sys2Proof.Machine

/-! ## Reset and hazards: 70_reset_and_hazards.md R231, R237 -/

namespace Sys2Proof.Machine

/-! ### No response depends on reset or on earlier requests (R231) -/

/-- Settles O14: both steps answer `responseOf` the decoded request under the parameters the two blocks share. -/
theorem responseDependsOnTheRequestAlone : Obligations.ResponseDependsOnTheRequestAlone := by
  intro s s' w rest rest' hparams hs hs'
  refine ⟨responseOf s.params (decode w), step_of_requests_eq_cons hs, ?_⟩
  rw [hparams]
  exact step_of_requests_eq_cons hs'

/-! ### One step from request to response (R237) -/

theorem core_run_succ_of_step {s t : State} (h : step s = .next t) (k : Nat) :
    Sys2Proof.core.run (k + 1) s = Sys2Proof.core.run k t := by
  have hcore : Sys2Proof.core.step s = .next t := h
  simp only [Host.Core.run, hcore]

/-- As many steps as there are pending requests serve them all and keep the parameters. -/
theorem core_run_serves_requests (ws : List RequestWord) (s : State) (h : s.requests = ws) :
    ∃ t : State, Sys2Proof.core.run ws.length s = .next t ∧ t.requests = [] ∧ t.params = s.params := by
  induction ws generalizing s with
  | nil => exact ⟨s, rfl, h, rfl⟩
  | cons w rest ih =>
    rw [List.length_cons, core_run_succ_of_step (step_of_requests_eq_cons h)]
    exact ih _ rfl

/-- Settles O12: a pending request is answered by the step that takes it, and the run is by induction on the list of
pending requests. -/
theorem everyRequestGetsAResponse : Obligations.EveryRequestGetsAResponse :=
  ⟨fun s w _ hpending => ⟨responseOf s.params (decode w), step_of_requests_eq_cons hpending⟩,
    fun s => core_run_serves_requests s.requests s rfl⟩

end Sys2Proof.Machine

/-! ## A step: 10_state.md R35 and 70_reset_and_hazards.md R237 -/

namespace Sys2Proof.Machine

/-! ### What a step can do -/

/-- Settles O9: the step takes the first pending request and runs what it decodes to. -/
theorem stepRunsTheDecodedRequest : Obligations.StepRunsTheDecodedRequest := by
  intro s w rest hpending
  have htake : takeRequest s = some (w, { s with requests := rest }) :=
    (takeRequest_some_iff s _ w).2 ⟨rest, hpending, rfl⟩
  rw [step, htake]

/-- Settles O10: there is no request to take, so the step idles. -/
theorem stepWithoutRequestIdles : Obligations.StepWithoutRequestIdles := by
  intro s hnone
  rw [step, (takeRequest_none_iff s).2 hnone, idle]

/-- A step idles where nothing is pending and serves the first pending request otherwise. -/
theorem step_cases {s t : State} (h : step s = .next t) :
    (s.requests = [] ∧ t = { s with response := none }) ∨
      ∃ w rest, s.requests = w :: rest ∧
        t = { s with requests := rest, response := some (responseOf s.params (decode w)) } := by
  by_cases hnone : s.requests = []
  · rw [stepWithoutRequestIdles s hnone] at h
    exact .inl ⟨hnone, (Host.Outcome.next.inj h).symm⟩
  · obtain ⟨w, rest, hpending⟩ := List.exists_cons_of_ne_nil hnone
    rw [step_of_requests_eq_cons hpending] at h
    exact .inr ⟨w, rest, hpending, (Host.Outcome.next.inj h).symm⟩

/-- Settles O8, by what a step can do. -/
theorem stepFrame : Obligations.StepFrame := by
  intro s t h
  obtain ⟨hnone, rfl⟩ | ⟨w, rest, hpending, rfl⟩ := step_cases h
  · simp [hnone]
  · simp [hpending]

/-! ### Every step keeps the invariant (R25, R83 to R85, R212) -/

/-- The error fields of a response agree, and no result stands beside an error. -/
theorem responseOf_errorFields (p : Params) (i : Instr) :
    ((responseOf p i).err = false ∧ (responseOf p i).errCode = 0#2) ∨
      responseOf p i = errorResponse .invalidArgument := by
  cases i with
  | expand ks radius =>
    cases ks with
    | none => exact .inr rfl
    | some ks => exact .inl ⟨rfl, rfl⟩
  | decode | encode | decodeDisc | decodeKeypad | decodeAction | isReservedKeys | isReservedByte =>
    exact .inl ⟨rfl, rfl⟩

theorem errorResponse_legal (e : RequestError) : ResponseLegal (errorResponse e) where
  noMarker := markerBits_zero
  codeWithoutError := by simp
  codeWithError _ := by cases e; rfl
  noResultWithError _ := ⟨rfl, rfl, rfl⟩

/-- Under P1 of R141 every operation answers a legal response. -/
theorem responseOf_legal {p : Params} (hp : goldenMarkerFree p) (i : Instr) : ResponseLegal (responseOf p i) := by
  obtain ⟨herr, hcode⟩ | herror := responseOf_errorFields p i
  · exact {
      noMarker := responseOf_markerFree hp i
      codeWithoutError := fun _ => hcode
      codeWithError := by simp [herr]
      noResultWithError := by simp [herr] }
  · rw [herror]
    exact errorResponse_legal _

/-- Settles O7: the parameters stay as they are, and the response is none or a legal one. -/
theorem stepKeepsTheInvariant : Obligations.StepKeepsTheInvariant := by
  rintro s t ⟨hparams, -⟩ h
  obtain ⟨-, rfl⟩ | ⟨w, rest, -, rfl⟩ := step_cases h
  · exact ⟨hparams, by simp⟩
  · refine ⟨hparams, fun r hr => ?_⟩
    obtain rfl := Option.some.inj hr
    exact responseOf_legal hparams.markerFree (decode w)

/-! ### A placed request is the next to be served (log 1) -/

theorem decode_requestOfTableWord {nbits w : Nat} {i : Instr} (h : decodeTableWord nbits w = some i) :
    decode (requestOfTableWord nbits w) = i := by
  unfold decodeTableWord decodeBits at h
  split_ifs at h
  exact Option.some.inj h

/-- Settles O11: the placed word stands at the head of the list. -/
theorem placedWordRunsNext : Obligations.PlacedWordRunsNext := by
  intro s nbits w i h
  rw [← decode_requestOfTableWord h]
  exact stepRunsTheDecodedRequest _ _ _ (putRequest_requests s _)

/-! ### LATENCY is read by no operation (R13, R236) -/

theorem responseOf_withLatency (p : Params) (l : Option Nat) (i : Instr) :
    responseOf { p with latency := l } i = responseOf p i := by
  cases i with
  | expand ks radius => cases ks <;> rfl
  | isReservedKeys ks => cases ks <;> rfl
  | decode | encode | decodeDisc | decodeKeypad | decodeAction | isReservedByte => rfl

/-- Settles O16: `responseOf` is the same at every LATENCY, operation by operation. -/
theorem latencyIsNeverRead : Obligations.LatencyIsNeverRead := by
  intro i s l
  refine ⟨responseOf s.params i, exec_eq_responseOf i s, ?_⟩
  rw [exec_eq_responseOf, responseOf_withLatency]

/-! ### Requests are served independently of each other (R56) -/

theorem responseAlone_eq (p : Params) (w : RequestWord) :
    responseAlone p w = some (responseOf p (decode w)) := by
  rw [responseAlone, step_of_requests_eq_cons rfl]

/-- Serving the pending requests answers each as if it were alone. -/
theorem serve_eq_map_responseAlone (ws : List RequestWord) (s : State) (h : s.requests = ws) :
    serve ws.length s = ws.map (responseAlone s.params) := by
  induction ws generalizing s with
  | nil => rfl
  | cons w rest ih =>
    rw [List.length_cons, serve, step_of_requests_eq_cons h, List.map_cons, responseAlone_eq]
    exact congrArg _ (ih _ rfl)

/-- Settles O17: the responses are a map over the requests, and a map commutes with reordering. -/
theorem requestsAreServedIndependently : Obligations.RequestsAreServedIndependently := by
  refine ⟨fun s => serve_eq_map_responseAlone s.requests s rfl, fun p ws ws' hperm => ?_⟩
  rw [serve_eq_map_responseAlone ws _ rfl, serve_eq_map_responseAlone ws' _ rfl,
    ← List.map_prod_left_eq_zip, ← List.map_prod_left_eq_zip]
  exact hperm.map _

end Sys2Proof.Machine

/-! ## The encodings: 30_encoding.md R81 to R85 -/

namespace Sys2Proof

/-! ### The operation of each OP value (R82) -/

theorem decode_eq_decode {w : RequestWord} (h : w.toNat % 8 = 0) : decode w = .decode (reqRaw w) := by
  have hop : reqOp w = 0#3 := reqOp_eq_of_toNat_mod h
  simp [decode, hop]

theorem decode_eq_encode {w : RequestWord} (h : w.toNat % 8 = 1) : decode w = .encode (reqKeySet w) := by
  have hop : reqOp w = 1#3 := reqOp_eq_of_toNat_mod h
  simp [decode, hop]

theorem decode_eq_decodeDisc {w : RequestWord} (h : w.toNat % 8 = 2) :
    decode w = .decodeDisc (reqRaw w) (discModeOf (reqMode w)) := by
  have hop : reqOp w = 2#3 := reqOp_eq_of_toNat_mod h
  simp [decode, hop]

theorem decode_eq_expand {w : RequestWord} (h : w.toNat % 8 = 5) :
    decode w = .expand (reqKeySet w) (reqRadius w) :=
  (decode_eq_expand_iff w _ _).2 ⟨reqOp_eq_of_toNat_mod h, rfl, rfl⟩

theorem decode_eq_isReservedKeys {w : RequestWord} (h : w.toNat % 8 = 6) :
    decode w = .isReservedKeys (reqKeySet w) := by
  have hop : reqOp w = 6#3 := reqOp_eq_of_toNat_mod h
  simp [decode, hop]

theorem decode_eq_isReservedByte {w : RequestWord} (h : w.toNat % 8 = 7) :
    decode w = .isReservedByte (reqRaw w) := by
  have hop : reqOp w = 7#3 := reqOp_eq_of_toNat_mod h
  simp [decode, hop]

/-! ### The fields of a request word as numbers (R81) -/

theorem reqRaw_eq_ofNat (w : RequestWord) : reqRaw w = BitVec.ofNat 8 (w.toNat / 2 ^ 8) := by
  rw [reqRaw, BitVec.extractLsb', Nat.shiftRight_eq_div_pow]

theorem reqRadius_eq_ofNat (w : RequestWord) : reqRadius w = BitVec.ofNat 32 (w.toNat / 2 ^ 16) := by
  rw [reqRadius, BitVec.extractLsb', Nat.shiftRight_eq_div_pow]

theorem reqKs_eq_ofNat (w : RequestWord) : reqKs w = BitVec.ofNat 36 (w.toNat / 2 ^ 48) := by
  rw [reqKs, BitVec.extractLsb', Nat.shiftRight_eq_div_pow]

/-- Bit `i` of a word as a number. -/
theorem getLsbD_iff_div_mod (w : RequestWord) (i : Nat) : w.getLsbD i = true ↔ w.toNat / 2 ^ i % 2 = 1 := by
  rw [BitVec.getLsbD, Nat.testBit_eq_decide_div_mod_eq, decide_eq_true_eq]

theorem reqKeySet_eq_ite (w : RequestWord) : reqKeySet w =
    if w.toNat / 2 ^ 4 % 2 = 1 then some (BitVec.ofNat 36 (w.toNat / 2 ^ 48)) else none := by
  simp only [reqKeySet, reqKsPresent, getLsbD_iff_div_mod, reqKs_eq_ofNat]

theorem discModeOf_reqMode_eq_ite (w : RequestWord) :
    discModeOf (reqMode w) = if w.toNat / 2 ^ 3 % 2 = 1 then .allMatches else .partialMatch := by
  simp only [discModeOf, reqMode, getLsbD_iff_div_mod]

/-- Settles O21: the operation of each OP value, its operands as numbers. -/
theorem everyOpValueNamesItsOperation : Obligations.EveryOpValueNamesItsOperation := by
  intro w raw radius ks mode
  have hraw : reqRaw w = raw := reqRaw_eq_ofNat w
  have hradius : reqRadius w = radius := reqRadius_eq_ofNat w
  have hks : reqKeySet w = ks := reqKeySet_eq_ite w
  have hmode : discModeOf (reqMode w) = mode := discModeOf_reqMode_eq_ite w
  rw [← hraw, ← hradius, ← hks, ← hmode]
  exact ⟨decode_eq_decode, decode_eq_encode, decode_eq_decodeDisc, decode_eq_decodeKeypad, decode_eq_decodeAction,
    decode_eq_expand, decode_eq_isReservedKeys, decode_eq_isReservedByte⟩

/-- Settles O22: nine fixed words. -/
theorem printedRequestWordsDecode : Obligations.PrintedRequestWordsDecode := by
  unfold Obligations.PrintedRequestWordsDecode
  decide

/-! ### Decoding what the encoder writes -/

/-- Every operand is read back from the field it was packed into. -/
@[simp] theorem decode_encode (i : Instr) : decode (encode i) = i := by
  cases i with
  | decode | encode | decodeDisc | decodeKeypad | decodeAction | expand | isReservedKeys | isReservedByte =>
    simp [decode, encode]

/-- Every request word is accepted as a number. -/
theorem decodeBits_toNat (w : RequestWord) : decodeBits w.toNat = .ok (decode w) := by
  rw [decodeBits, if_pos w.isLt, BitVec.ofNat_toNat, BitVec.setWidth_eq]

/-- Settles O18: each field packed is the field read. -/
theorem decodeOfEncodeIsIdentity : Obligations.DecodeOfEncodeIsIdentity := by
  intro i
  exact ⟨decode_encode i, by rw [decodeBits_toNat, decode_encode]⟩

/-! ### Encoding what a word decodes to -/

/-- Bit `i` of a word, read in the field that holds it. -/
theorem getLsbD_extractLsb'_sub (w : RequestWord) {start len i : Nat} (hlo : start ≤ i) (hhi : i < start + len) :
    (w.extractLsb' start len).getLsbD (i - start) = w.getLsbD i := by
  have hlen : i - start < len := by omega
  rw [BitVec.getLsbD_extractLsb', Nat.add_sub_cancel' hlo, decide_eq_true hlen, Bool.true_and]

/-- Masking a word masks each of its fields. -/
theorem and_packRequest (w : RequestWord) (op : BitVec 3) (mode ksPresent : Bool) (raw : Byte)
    (radius : RadiusField) (ks : KeySet) :
    w &&& packRequest op mode ksPresent raw radius ks =
      packRequest (reqOp w &&& op) (reqMode w && mode) (reqKsPresent w && ksPresent) (reqRaw w &&& raw)
        (reqRadius w &&& radius) (reqKs w &&& ks) := by
  apply BitVec.eq_of_getLsbD_eq
  intro i hi
  rw [BitVec.getLsbD_and, packRequest_getLsbD, packRequest_getLsbD]
  split_ifs with hop hmode hpresent hreserved hraw hradius
  · rw [BitVec.getLsbD_and]
    exact congrArg (· && op.getLsbD i) (getLsbD_extractLsb'_sub w (Nat.zero_le i) (by omega)).symm
  · obtain rfl : i = 3 := by omega
    rfl
  · obtain rfl : i = 4 := by omega
    rfl
  · exact Bool.and_false _
  · rw [BitVec.getLsbD_and, reqRaw, getLsbD_extractLsb'_sub w (by omega) hraw]
  · rw [BitVec.getLsbD_and, reqRadius, getLsbD_extractLsb'_sub w (by omega) hradius]
  · rw [BitVec.getLsbD_and, reqKs, getLsbD_extractLsb'_sub w (by omega) hi]

/-- The bits of KS that count: all of them where KS_PRESENT is 1, and none otherwise (R78). -/
def ksMask (w : RequestWord) : KeySet := if reqKsPresent w then BitVec.allOnes 36 else 0#36

theorem reqKeySet_isSome (w : RequestWord) : (reqKeySet w).isSome = reqKsPresent w := by
  cases hpresent : reqKsPresent w <;> simp [reqKeySet, hpresent]

theorem ksField_reqKeySet (w : RequestWord) : ksField (reqKeySet w) = reqKs w &&& ksMask w := by
  cases hpresent : reqKsPresent w with
  | false => simp [reqKeySet, ksField, ksMask, hpresent]
  | true => rw [reqKeySet, ksField, ksMask, if_pos hpresent, if_pos hpresent, BitVec.and_allOnes, Option.getD_some]

theorem modeBit_discModeOf (mode : Bool) : modeBit (discModeOf mode) = mode := by
  cases mode <;> rfl

/-! The bits each operation reads are the fields it reads (R82). -/

/-- ENCODE and IS_RESERVED_KEYS read OP, KS_PRESENT and KS. -/
theorem and_bitsRead_of_keySet {w : RequestWord} (h : w.toNat % 8 = 1 ∨ w.toNat % 8 = 6) :
    w &&& Statements.bitsRead w =
      packRequest (reqOp w) false (reqKeySet w).isSome 0#8 0#32 (ksField (reqKeySet w)) := by
  have hmask : Statements.bitsRead w = packRequest (BitVec.allOnes 3) false true 0#8 0#32 (ksMask w) := by
    rw [Statements.bitsRead, if_pos h, ksMask, reqKsPresent]
    cases w.getLsbD 4 <;> decide
  rw [hmask, and_packRequest, reqKeySet_isSome, ksField_reqKeySet, BitVec.and_allOnes, Bool.and_false,
    Bool.and_true, BitVec.and_zero, BitVec.and_zero]

/-- EXPAND reads OP, KS_PRESENT, RADIUS and KS. -/
theorem and_bitsRead_of_expand {w : RequestWord} (h : w.toNat % 8 = 5) :
    w &&& Statements.bitsRead w =
      packRequest (reqOp w) false (reqKeySet w).isSome 0#8 (reqRadius w) (ksField (reqKeySet w)) := by
  have hmask : Statements.bitsRead w =
      packRequest (BitVec.allOnes 3) false true 0#8 (BitVec.allOnes 32) (ksMask w) := by
    have hkeys : ¬ (w.toNat % 8 = 1 ∨ w.toNat % 8 = 6) := by omega
    have hdisc : ¬ w.toNat % 8 = 2 := by omega
    rw [Statements.bitsRead, if_neg hkeys, if_neg hdisc, if_pos h, ksMask, reqKsPresent]
    cases w.getLsbD 4 <;> decide
  rw [hmask, and_packRequest, reqKeySet_isSome, ksField_reqKeySet, BitVec.and_allOnes, BitVec.and_allOnes,
    Bool.and_false, Bool.and_true, BitVec.and_zero]

/-- DECODE_DISC reads OP, MODE and RAW. -/
theorem and_bitsRead_of_decodeDisc {w : RequestWord} (h : w.toNat % 8 = 2) :
    w &&& Statements.bitsRead w = packRequest (reqOp w) (reqMode w) false (reqRaw w) 0#32 0#36 := by
  have hmask : Statements.bitsRead w =
      packRequest (BitVec.allOnes 3) true false (BitVec.allOnes 8) 0#32 0#36 := by
    have hkeys : ¬ (w.toNat % 8 = 1 ∨ w.toNat % 8 = 6) := by omega
    rw [Statements.bitsRead, if_neg hkeys, if_pos h]
    decide
  rw [hmask, and_packRequest, BitVec.and_allOnes, BitVec.and_allOnes, Bool.and_false, Bool.and_true,
    BitVec.and_zero, BitVec.and_zero]

/-- The other four operations read OP and RAW. -/
theorem and_bitsRead_of_raw {w : RequestWord}
    (h : w.toNat % 8 = 0 ∨ w.toNat % 8 = 3 ∨ w.toNat % 8 = 4 ∨ w.toNat % 8 = 7) :
    w &&& Statements.bitsRead w = packRequest (reqOp w) false false (reqRaw w) 0#32 0#36 := by
  have hmask : Statements.bitsRead w =
      packRequest (BitVec.allOnes 3) false false (BitVec.allOnes 8) 0#32 0#36 := by
    have hkeys : ¬ (w.toNat % 8 = 1 ∨ w.toNat % 8 = 6) := by omega
    have hdisc : ¬ w.toNat % 8 = 2 := by omega
    have hexpand : ¬ w.toNat % 8 = 5 := by omega
    rw [Statements.bitsRead, if_neg hkeys, if_neg hdisc, if_neg hexpand]
    decide
  rw [hmask, and_packRequest, BitVec.and_allOnes, BitVec.and_allOnes, Bool.and_false, Bool.and_false,
    BitVec.and_zero, BitVec.and_zero]

/-- Encoding what a word decodes to writes the fields its operation reads, and no other. -/
theorem encode_decode (w : RequestWord) : encode (decode w) = w &&& Statements.bitsRead w := by
  have hop : w.toNat % 8 = 0 ∨ w.toNat % 8 = 1 ∨ w.toNat % 8 = 2 ∨ w.toNat % 8 = 3 ∨ w.toNat % 8 = 4 ∨
      w.toNat % 8 = 5 ∨ w.toNat % 8 = 6 ∨ w.toNat % 8 = 7 := by omega
  obtain h | h | h | h | h | h | h | h := hop
  · rw [decode_eq_decode h, encode, and_bitsRead_of_raw (by simp [h]), (reqOp_eq_iff w 0#3).2 h]
  · rw [decode_eq_encode h, encode, and_bitsRead_of_keySet (.inl h), (reqOp_eq_iff w 1#3).2 h]
  · rw [decode_eq_decodeDisc h, encode, modeBit_discModeOf, and_bitsRead_of_decodeDisc h,
      (reqOp_eq_iff w 2#3).2 h]
  · rw [decode_eq_decodeKeypad h, encode, and_bitsRead_of_raw (by simp [h]), (reqOp_eq_iff w 3#3).2 h]
  · rw [decode_eq_decodeAction h, encode, and_bitsRead_of_raw (by simp [h]), (reqOp_eq_iff w 4#3).2 h]
  · rw [decode_eq_expand h, encode, and_bitsRead_of_expand h, (reqOp_eq_iff w 5#3).2 h]
  · rw [decode_eq_isReservedKeys h, encode, and_bitsRead_of_keySet (.inr h), (reqOp_eq_iff w 6#3).2 h]
  · rw [decode_eq_isReservedByte h, encode, and_bitsRead_of_raw (by simp [h]), (reqOp_eq_iff w 7#3).2 h]

/-- Settles O19: for each operation the mask of the bits it reads is 1 in the fields that `encode` writes. -/
theorem encodeOfDecodeKeepsTheBitsRead : Obligations.EncodeOfDecodeKeepsTheBitsRead := encode_decode

/-- Words that agree on the bits read decode to the same operation: `decode` is undone by `encode`. -/
theorem decode_eq_of_and_bitsRead {w w' : RequestWord}
    (h : w &&& Statements.bitsRead w = w' &&& Statements.bitsRead w') : decode w = decode w' := by
  rw [← encode_decode, ← encode_decode] at h
  rw [← decode_encode (decode w), h, decode_encode]

end Sys2Proof

namespace Sys2Proof.Machine

/-- Settles O20: both steps serve the same operation. -/
theorem unreadRequestBitsAreIgnored : Obligations.UnreadRequestBitsAreIgnored := by
  intro s w w' rest h
  refine ⟨_, step_of_requests_eq_cons rfl, ?_⟩
  rw [decode_eq_of_and_bitsRead h]
  exact step_of_requests_eq_cons rfl

/-! ### The response word (R83) -/

/-- A field placed above all the bits of a word adds its value times its place. -/
theorem toNat_or_setWidth_shiftLeft (word : ResponseWord) {len place : Nat} (field : BitVec len)
    (hword : word.toNat < 2 ^ place) (hfit : place + len ≤ 48) :
    (word ||| field.setWidth 48 <<< place).toNat = word.toNat + 2 ^ place * field.toNat := by
  have hfield : field.toNat < 2 ^ 48 := field.isLt.trans_le (Nat.pow_le_pow_right (by decide) (by omega))
  have hplaced : field.toNat * 2 ^ place < 2 ^ 48 :=
    calc field.toNat * 2 ^ place
      _ < 2 ^ len * 2 ^ place := Nat.mul_lt_mul_of_pos_right field.isLt (by positivity)
      _ = 2 ^ (place + len) := by rw [Nat.pow_add, Nat.mul_comm]
      _ ≤ 2 ^ 48 := Nat.pow_le_pow_right (by decide) hfit
  rw [BitVec.toNat_or, BitVec.toNat_shiftLeft, BitVec.toNat_setWidth, Nat.mod_eq_of_lt hfield, Nat.shiftLeft_eq,
    Nat.mod_eq_of_lt hplaced, ← Nat.shiftLeft_eq, Nat.or_comm, ← Nat.shiftLeft_add_eq_or_of_lt hword,
    Nat.shiftLeft_eq, Nat.mul_comm, Nat.add_comm]

/-- Settles O23: the fields are placed one after the other, each above all those before it. -/
theorem responseWordHasThePrintedLayout : Obligations.ResponseWordHasThePrintedLayout := by
  intro r
  have hksLt := r.outKs.isLt
  have hbyteLt := r.outByte.isLt
  have hboolLt := Bool.toNat_lt r.outBool
  have herrLt := Bool.toNat_lt r.err
  have hks : (r.outKs.setWidth 48).toNat = r.outKs.toNat := by
    rw [BitVec.toNat_setWidth]
    exact Nat.mod_eq_of_lt (by omega)
  have hbyte := toNat_or_setWidth_shiftLeft (r.outKs.setWidth 48) (place := 36) r.outByte (by omega) (by decide)
  have hbool := toNat_or_setWidth_shiftLeft _ (place := 44) (BitVec.ofBool r.outBool)
    (by rw [hbyte]; omega) (by decide)
  have herr := toNat_or_setWidth_shiftLeft _ (place := 45) (BitVec.ofBool r.err)
    (by rw [hbool, BitVec.toNat_ofBool]; omega) (by decide)
  have hcode := toNat_or_setWidth_shiftLeft _ (place := 46) r.errCode
    (by rw [herr, BitVec.toNat_ofBool]; omega) (by decide)
  rw [responseWord, hcode, herr, hbool, hbyte, hks, BitVec.toNat_ofBool, BitVec.toNat_ofBool]

end Sys2Proof.Machine

/-! ## Reset and the tables: 10_state.md R21, R30, R38 and 30_encoding.md R72 to R77 -/

namespace Sys2Proof.Machine

/-- Settles O1: reset holds the defaults. -/
theorem resetLeavesDefaultsAndNoResponse : Obligations.ResetLeavesDefaultsAndNoResponse :=
  ⟨rfl, rfl, rfl, rfl, rfl, rfl⟩

/-- A Marker has no pattern (R76). -/
theorem code_eq_zero_of_isMarker {k : Key} (h : isMarker k = true) : code k = 0#8 := by
  have hfamily : keyFamily k = .marker := eq_of_beq h
  rw [code, hfamily]

/-- Settles O2: the printed tables entry by entry; membership is the bit by definition. -/
theorem tablesHoldThePrintedEntries : Obligations.TablesHoldThePrintedEntries :=
  ⟨by decide, by decide, fun _ _ => rfl, keySetOf_singleton, by decide, fun _ => code_eq_zero_of_isMarker, rfl⟩

end Sys2Proof.Machine

/-! ## The compass decoder: 41_compass_decoder.md R100 to R105 -/

namespace Sys2Proof.Machine

open Sys2Proof.Statements (candidate coarseDiscRows fineDiscRows)

/-! ### The directions of lines and of adjacent pairs (R73) -/

/-- Settles O5: the four lines and the four adjacent pairs, with and without FINE. -/
theorem discCodesFollowTheStructuralRule : Obligations.DiscCodesFollowTheStructuralRule := by
  unfold Obligations.DiscCodesFollowTheStructuralRule
  decide

theorem discCode_singleDir {c : Nat} (hc : c < 4) (fine : Bool) :
    discCode (singleDir c fine) = BitVec.ofBool fine ++ (1#4 <<< c) :=
  discCodesFollowTheStructuralRule.1 ⟨c, hc⟩ fine

theorem discCode_pairDir {p : Nat × Nat} (hp : p ∈ adjacentPairs) (fine : Bool) :
    discCode (pairDir p fine) = BitVec.ofBool fine ++ ((1#4 <<< p.1) ||| (1#4 <<< p.2)) :=
  discCodesFollowTheStructuralRule.2 p hp fine

/-- Every Disc value is the direction of one line or of one adjacent pair. -/
theorem exists_singleDir_or_pairDir {d : Key} (h : isDisc d = true) :
    ∃ fine, (∃ c < 4, d = singleDir c fine) ∨ ∃ p ∈ adjacentPairs, d = pairDir p fine := by
  have ring : ∀ e ∈ discKeys,
      ∃ fine, (∃ c < 4, e = singleDir c fine) ∨ ∃ p ∈ adjacentPairs, e = pairDir p fine := by decide
  exact ring d ((mem_discKeys d).2 h)

/-! ### The lines and the pairs in RAW (R101) -/

theorem mem_linesOf (raw : Byte) (c : Nat) : c ∈ linesOf raw ↔ (rawNib raw).getLsbD c = true := by
  simp only [linesOf, setBits, List.mem_filter, List.mem_range, and_iff_right_iff_imp]
  exact BitVec.lt_of_getLsbD

theorem lt_of_mem_linesOf {raw : Byte} {c : Nat} (h : c ∈ linesOf raw) : c < 4 :=
  BitVec.lt_of_getLsbD ((mem_linesOf raw c).1 h)

theorem mem_pairsOf (raw : Byte) (p : Nat × Nat) :
    p ∈ pairsOf raw ↔ p ∈ adjacentPairs ∧ p.1 ∈ linesOf raw ∧ p.2 ∈ linesOf raw := by
  simp [pairsOf]

theorem covered_iff (c : Nat) (raw : Byte) : covered c raw = true ↔ ∃ p ∈ pairsOf raw, p.1 = c ∨ p.2 = c := by
  simp only [covered, List.any_eq_true, Bool.or_eq_true, beq_iff_eq]

theorem mem_pairDirs (raw : Byte) (d : Key) : d ∈ pairDirs raw ↔ ∃ p ∈ pairsOf raw, d = pairDir p (rawFine raw) := by
  simp only [pairDirs, List.mem_map, eq_comm]

theorem mem_singleDirs (lines : List Nat) (raw : Byte) (d : Key) :
    d ∈ singleDirs lines raw ↔ ∃ c ∈ lines, d = singleDir c (rawFine raw) := by
  simp only [singleDirs, List.mem_map, eq_comm]

/-! ### The candidates of RAW (R100, R103) -/

theorem candidate_iff_of_discCode {d : Key} {fine : Bool} {nib : BitVec 4} (hd : isDisc d = true)
    (hcode : discCode d = BitVec.ofBool fine ++ nib) (raw : Byte) :
    candidate raw d ↔ fine = rawFine raw ∧ nib ≠ 0#4 ∧ nib &&& ~~~(rawNib raw) = 0#4 := by
  have hfine : (BitVec.ofBool fine ++ nib).getLsbD 4 = fine := by
    rw [BitVec.getLsbD_append]
    simp
  have hnib : (BitVec.ofBool fine ++ nib).setWidth 4 = nib := BitVec.setWidth_append_eq_right
  have hraw : raw.setWidth 4 = rawNib raw := by
    apply BitVec.eq_of_getLsbD_eq
    intro i hi
    simp [rawNib]
  rw [candidate, hcode, hfine, hnib, hraw, rawFine, and_iff_right hd]

/-- The direction of a line is a candidate when the line is in RAW. -/
theorem candidate_singleDir {c : Nat} (hc : c < 4) (fine : Bool) (raw : Byte) :
    candidate raw (singleDir c fine) ↔ fine = rawFine raw ∧ c ∈ linesOf raw := by
  have line : ∀ v : BitVec 4, ∀ c < 4, (1#4 <<< c ≠ 0#4 ∧ (1#4 <<< c) &&& ~~~v = 0#4) ↔ v.getLsbD c = true := by
    decide
  rw [candidate_iff_of_discCode (isDisc_singleDir c fine) (discCode_singleDir hc fine), line (rawNib raw) c hc,
    mem_linesOf]

/-- The direction of a pair is a candidate when both its lines are in RAW. -/
theorem candidate_pairDir {p : Nat × Nat} (hp : p ∈ adjacentPairs) (fine : Bool) (raw : Byte) :
    candidate raw (pairDir p fine) ↔ fine = rawFine raw ∧ p ∈ pairsOf raw := by
  have lines : ∀ v : BitVec 4, ∀ p ∈ adjacentPairs,
      ((1#4 <<< p.1) ||| (1#4 <<< p.2) ≠ 0#4 ∧ ((1#4 <<< p.1) ||| (1#4 <<< p.2)) &&& ~~~v = 0#4) ↔
        v.getLsbD p.1 = true ∧ v.getLsbD p.2 = true := by decide
  rw [candidate_iff_of_discCode (isDisc_pairDir p fine) (discCode_pairDir hp fine), lines (rawNib raw) p hp,
    mem_pairsOf, mem_linesOf, mem_linesOf, and_iff_right hp]

/-- The candidates are the directions of the pairs and of the lines in RAW, at RAW's fine bit. -/
theorem candidate_iff_mem_dirs (raw : Byte) (d : Key) :
    candidate raw d ↔ d ∈ pairDirs raw ∨ d ∈ singleDirs (linesOf raw) raw := by
  rw [mem_pairDirs, mem_singleDirs]
  constructor
  · intro h
    have hd : isDisc d = true := h.1
    obtain ⟨fine, ⟨c, hc, rfl⟩ | ⟨p, hp, rfl⟩⟩ := exists_singleDir_or_pairDir hd
    · obtain ⟨rfl, hmem⟩ := (candidate_singleDir hc fine raw).1 h
      exact .inr ⟨c, hmem, rfl⟩
    · obtain ⟨rfl, hmem⟩ := (candidate_pairDir hp fine raw).1 h
      exact .inl ⟨p, hmem, rfl⟩
  · rintro (⟨p, hmem, rfl⟩ | ⟨c, hmem, rfl⟩)
    · exact (candidate_pairDir ((mem_pairsOf raw p).1 hmem).1 _ raw).2 ⟨rfl, hmem⟩
    · exact (candidate_singleDir (lt_of_mem_linesOf hmem) _ raw).2 ⟨rfl, hmem⟩

/-! ### The all-matches mode (R103) -/

theorem hasKey_allMatchesSet (raw : Byte) (d : Key) : hasKey (allMatchesSet raw) d = true ↔ candidate raw d := by
  rw [candidate_iff_mem_dirs, allMatchesSet, hasKey_or, Bool.or_eq_true, hasKey_keySetOf, hasKey_keySetOf]

/-- Without lines there is no pair and no single direction either, so the guard of R104 changes nothing. -/
theorem dirs_eq_nil_of_rawNib_eq_zero {raw : Byte} (h : rawNib raw = 0#4) : linesOf raw = [] ∧ pairDirs raw = [] := by
  have hlines : linesOf raw = [] := by simp [linesOf, setBits, h]
  exact ⟨hlines, by simp [pairDirs, pairsOf, hlines]⟩

theorem discSet_allMatches (raw : Byte) : discSet raw .allMatches = allMatchesSet raw := by
  by_cases hnib : rawNib raw = 0#4
  · obtain ⟨hlines, hpairs⟩ := dirs_eq_nil_of_rawNib_eq_zero hnib
    simp [discSet, allMatchesSet, singleDirs, hnib, hlines, hpairs, keySetOf]
  · simp [discSet, hnib]

theorem discSet_partialMatch (raw : Byte) : discSet raw .partialMatch = partialMatchSet raw := by
  by_cases hnib : rawNib raw = 0#4
  · obtain ⟨hlines, hpairs⟩ := dirs_eq_nil_of_rawNib_eq_zero hnib
    simp [discSet, partialMatchSet, singleDirs, hnib, hlines, hpairs, keySetOf]
  · simp [discSet, hnib]

/-- Settles O25: the pairs and the lines in RAW are the candidates. -/
theorem allMatchesIsEveryCandidate : Obligations.AllMatchesIsEveryCandidate := by
  intro s raw
  refine ⟨allMatchesSet raw, ?answer, hasKey_allMatchesSet raw⟩
  case answer => rw [exec_eq_responseOf, responseOf, discSet_allMatches, keysResponse]

/-! ### The partial-match mode (R102) -/

theorem hasKey_partialMatchSet (raw : Byte) (d : Key) :
    hasKey (partialMatchSet raw) d = true ↔ (∃ p ∈ pairsOf raw, d = pairDir p (rawFine raw)) ∨
      ∃ c ∈ linesOf raw, ¬ covered c raw = true ∧ d = singleDir c (rawFine raw) := by
  rw [partialMatchSet, hasKey_or, Bool.or_eq_true, hasKey_keySetOf, hasKey_keySetOf, mem_pairDirs, mem_singleDirs]
  simp only [List.mem_filter, Bool.not_eq_true', Bool.not_eq_true, and_assoc]

/-- The nibble of `d` lies inside the nibble of `e`. -/
def nibbleInside (d e : Key) : Prop := (discCode d).setWidth 4 &&& ~~~((discCode e).setWidth 4) = 0#4

/-- A pair lies inside no other direction of its fine bit. -/
theorem eq_pairDir_of_nibbleInside {p : Nat × Nat} (hp : p ∈ adjacentPairs) {fine : Bool} {e : Key}
    (he : isDisc e = true) (hfine : (discCode e).getLsbD 4 = fine) (h : nibbleInside (pairDir p fine) e) :
    e = pairDir p fine := by
  have ring : ∀ p ∈ adjacentPairs, ∀ e ∈ discKeys, nibbleInside (pairDir p ((discCode e).getLsbD 4)) e →
      e = pairDir p ((discCode e).getLsbD 4) := by
    unfold nibbleInside
    decide
  subst hfine
  exact ring p hp e ((mem_discKeys e).2 he) h

/-- A line lies inside the pairs that hold it, and inside no other direction of its fine bit. -/
theorem eq_singleDir_or_pairDir_of_nibbleInside {c : Nat} (hc : c < 4) {fine : Bool} {e : Key}
    (he : isDisc e = true) (hfine : (discCode e).getLsbD 4 = fine) (h : nibbleInside (singleDir c fine) e) :
    e = singleDir c fine ∨ ∃ p ∈ adjacentPairs, (p.1 = c ∨ p.2 = c) ∧ e = pairDir p fine := by
  have ring : ∀ c < 4, ∀ e ∈ discKeys, nibbleInside (singleDir c ((discCode e).getLsbD 4)) e →
      e = singleDir c ((discCode e).getLsbD 4) ∨
        ∃ p ∈ adjacentPairs, (p.1 = c ∨ p.2 = c) ∧ e = pairDir p ((discCode e).getLsbD 4) := by
    unfold nibbleInside
    decide
  subst hfine
  exact ring c hc e ((mem_discKeys e).2 he) h

theorem singleDir_nibbleInside_pairDir {p : Nat × Nat} (hp : p ∈ adjacentPairs) {c : Nat} (hc : p.1 = c ∨ p.2 = c)
    (fine : Bool) : nibbleInside (singleDir c fine) (pairDir p fine) ∧ pairDir p fine ≠ singleDir c fine := by
  have pairs : ∀ p ∈ adjacentPairs, ∀ fine, ∀ c ∈ [p.1, p.2],
      nibbleInside (singleDir c fine) (pairDir p fine) ∧ pairDir p fine ≠ singleDir c fine := by
    unfold nibbleInside
    decide
  exact pairs p hp fine c (by simpa [eq_comm] using hc)

/-- The partial-match set holds the tightest candidates: a pair is always one, and a line is one unless a pair in RAW
covers it. -/
theorem hasKey_partialMatchSet_iff_tightest (raw : Byte) (d : Key) :
    hasKey (partialMatchSet raw) d = true ↔
      candidate raw d ∧ ∀ e, candidate raw e → e ≠ d → ¬ nibbleInside d e := by
  rw [hasKey_partialMatchSet]
  constructor
  · rintro (⟨p, hp, rfl⟩ | ⟨c, hc, huncovered, rfl⟩)
    · have hadjacent := ((mem_pairsOf raw p).1 hp).1
      refine ⟨(candidate_pairDir hadjacent _ raw).2 ⟨rfl, hp⟩, ?_⟩
      rintro e ⟨he, hfine, -⟩ hne hinside
      exact hne (eq_pairDir_of_nibbleInside hadjacent he hfine hinside)
    · have hlt := lt_of_mem_linesOf hc
      refine ⟨(candidate_singleDir hlt _ raw).2 ⟨rfl, hc⟩, ?_⟩
      intro e hcandidate hne hinside
      obtain ⟨he, hfine, -⟩ := id hcandidate
      obtain heq | ⟨p, hp, hcp, rfl⟩ := eq_singleDir_or_pairDir_of_nibbleInside hlt he hfine hinside
      · exact hne heq
      · exact huncovered ((covered_iff c raw).2 ⟨p, ((candidate_pairDir hp _ raw).1 hcandidate).2, hcp⟩)
  · rintro ⟨hcandidate, htightest⟩
    obtain hpair | hsingle := (candidate_iff_mem_dirs raw d).1 hcandidate
    · exact .inl ((mem_pairDirs raw d).1 hpair)
    · obtain ⟨c, hc, rfl⟩ := (mem_singleDirs _ raw d).1 hsingle
      refine .inr ⟨c, hc, fun hcovered => ?_, rfl⟩
      obtain ⟨p, hp, hcp⟩ := (covered_iff c raw).1 hcovered
      have hadjacent := ((mem_pairsOf raw p).1 hp).1
      obtain ⟨hinside, hne⟩ := singleDir_nibbleInside_pairDir hadjacent hcp (rawFine raw)
      exact htightest _ ((candidate_pairDir hadjacent _ raw).2 ⟨rfl, hp⟩) hne hinside

/-- Settles O24, by what the partial-match set holds. -/
theorem partialMatchIsTheTightestCandidates : Obligations.PartialMatchIsTheTightestCandidates := by
  intro s raw
  refine ⟨partialMatchSet raw, ?answer, hasKey_partialMatchSet_iff_tightest raw⟩
  case answer => rw [exec_eq_responseOf, responseOf, discSet_partialMatch, keysResponse]

/-! ### The full table (R105) -/

/-- DECODE_DISC reads the lines and the fine bit of RAW only. -/
theorem discSet_congr {a b : Byte} (hnib : rawNib a = rawNib b) (hfine : rawFine a = rawFine b) (mode : DiscMode) :
    discSet a mode = discSet b mode := by
  simp only [discSet, partialMatchSet, allMatchesSet, pairDirs, singleDirs, pairsOf, covered, linesOf, hnib, hfine]

/-- The disc set of RAW is that of RAW[4:0]. -/
theorem discSet_mod (raw : Byte) (mode : DiscMode) :
    discSet (BitVec.ofNat 8 (raw.toNat % 32)) mode = discSet raw mode := by
  apply discSet_congr
  · apply BitVec.eq_of_toNat_eq
    simp [rawNib, BitVec.extractLsb'_toNat]
  · rw [rawFine, BitVec.getLsbD_ofNat, show 32 = 2 ^ 5 from rfl, Nat.testBit_mod_two_pow]
    rfl

/-- Settles O26: RAW[7:5] is not read, and the 32 values of RAW[4:0] have the rows of the table. -/
theorem decodeDiscFollowsTheFullTable : Obligations.DecodeDiscFollowsTheFullTable := by
  intro s raw row hrow
  have rows : ∀ n < 32, ∀ row ∈ (coarseDiscRows ++ fineDiscRows)[n]?,
      discSet (BitVec.ofNat 8 n) .partialMatch = keySetOf row.1 ∧
        discSet (BitVec.ofNat 8 n) .allMatches = keySetOf row.2 := by decide
  obtain ⟨hpartial, hall⟩ := rows _ (Nat.mod_lt _ (by decide)) row hrow
  rw [discSet_mod] at hpartial hall
  refine ⟨?partialMatch, ?allMatches⟩
  case partialMatch => rw [exec_eq_responseOf, responseOf, hpartial, keysResponse]
  case allMatches => rw [exec_eq_responseOf, responseOf, hall, keysResponse]

end Sys2Proof.Machine

/-! ## The keypad and action-button decoder beside the codes: 42_keypad_action_decoder.md R120, R123 -/

namespace Sys2Proof.Machine

open Sys2Proof.Statements (gridRows)

/-! ### The grid and the codes of its keys (R74) -/

theorem exists_gridRow_of_isKeypad {k : Key} (h : isKeypad k = true) : ∃ e ∈ gridRows, e.2.2 = k := by
  have keys : ∀ k ∈ allKeys, isKeypad k = true → ∃ e ∈ gridRows, e.2.2 = k := by decide
  exact keys k (mem_allKeys k) h

theorem fields_of_code_gridRow {e : BitVec 4 × BitVec 3 × Key} (he : e ∈ gridRows) :
    rawNib (code e.2.2) = e.1 ∧ rawCol (code e.2.2) = e.2.1 := by
  revert e
  decide

theorem rawNib_and_clearFine (raw : Byte) : rawNib (raw &&& 0xEF#8) = rawNib raw := by
  rw [rawNib, BitVec.extractLsb'_and]
  exact BitVec.and_allOnes

theorem rawCol_and_clearFine (raw : Byte) : rawCol (raw &&& 0xEF#8) = rawCol raw := by
  rw [rawCol, BitVec.extractLsb'_and]
  exact BitVec.and_allOnes

/-- A value whose bits other than RAW[4] are the code of a keypad key selects that key. -/
theorem keypadKey_eq_some_of_code {raw : Byte} {k : Key} (hk : isKeypad k = true) (h : raw &&& 0xEF#8 = code k) :
    keypadKey raw = some k := by
  obtain ⟨e, he, rfl⟩ := exists_gridRow_of_isKeypad hk
  obtain ⟨hnib, hcol⟩ := fields_of_code_gridRow he
  rw [← h, rawNib_and_clearFine] at hnib
  rw [← h, rawCol_and_clearFine] at hcol
  exact (keypadKey_eq_some_iff raw e.2.2).2 ⟨e, he, hnib, hcol, rfl⟩

/-- Settles O28: the grid is read by the codes of its keys. -/
theorem keypadAnswersTheKeyOfTheCode : Obligations.KeypadAnswersTheKeyOfTheCode := by
  intro s raw
  refine ⟨keypadSet raw, exec_eq_responseOf (.decodeKeypad raw) s, fun k => ⟨fun h => ?_, fun ⟨hk, hcode⟩ => ?_⟩⟩
  · exact ⟨isKeypad_of_hasKey_keypadSet h, code_of_hasKey_keypadSet h⟩
  · rw [keypadSet_of_keypadKey_eq_some (keypadKey_eq_some_of_code hk hcode), hasKey_keySetOf]
    exact List.mem_singleton_self k

/-! ### A keypad key and a button never show together (R123) -/

/-- A button needs two column lines, a keypad key exactly one. -/
theorem actionSet_eq_zero_of_onehot {raw : Byte} (h : onehot (rawCol raw) = true) : actionSet raw = 0#36 :=
  actionSet_eq_zero_of_rawCol (List.mem_cons_of_mem _ ((onehot_col_iff _).1 h))

/-- Settles O30, by whether the column is one-hot. -/
theorem keypadAndActionNeverBothAnswer : Obligations.KeypadAndActionNeverBothAnswer := by
  intro s raw
  refine ⟨keypadSet raw, actionSet raw, exec_eq_responseOf (.decodeKeypad raw) s,
    exec_eq_responseOf (.decodeAction raw) s, ?_⟩
  by_cases hcol : onehot (rawCol raw) = true
  · exact .inr (actionSet_eq_zero_of_onehot hcol)
  · exact .inl (keypadSet_eq_zero_of_not_onehot (.inr hcol))

end Sys2Proof.Machine

/-! ## The codec under a table and under the defaults: 43_codec.md R140 to R146 -/

namespace Sys2Proof.Machine

/-! ### DECODE (R140, R141) -/

/-- DECODE answers GOLDEN_DECODE of its operand and changes nothing else. -/
theorem exec_decode (raw : Byte) (s : State) :
    exec (.decode raw) s = .next { s with response := some (keysResponse (goldenDecode s.params raw)) } :=
  exec_eq_responseOf (.decode raw) s

theorem goldenDecode_of_eq_none {p : Params} (h : p.goldenDecode = none) (raw : Byte) :
    goldenDecode p raw = composedDecode p.decodeDiscAllMatches raw := by
  rw [goldenDecode, h]

theorem goldenDecode_of_eq_some {p : Params} {t : Vector KeySet 256} (h : p.goldenDecode = some t) (raw : Byte) :
    goldenDecode p raw = t[raw.toNat]'raw.isLt := by
  rw [goldenDecode, h]

/-- Settles O33: GOLDEN_DECODE is then the entry read from the table. -/
theorem decodeAnswersTheGivenTable : Obligations.DecodeAnswersTheGivenTable := by
  intro s raw t entry htable hentry
  have hread : t[raw.toNat]'raw.isLt = entry :=
    Option.some.inj ((Vector.getElem?_eq_getElem raw.isLt).symm.trans hentry)
  rw [exec_decode, goldenDecode_of_eq_some htable, hread, keysResponse]

/-- Settles O34: the literal points are P2, and the absence of Markers is P1. -/
theorem decodeLiteralsHoldForEveryLegalTable : Obligations.DecodeLiteralsHoldForEveryLegalTable := by
  intro s hlegal
  obtain ⟨hdiscS, hkeypad1, htop, hall⟩ := hlegal.literals
  refine ⟨?keypad1, ?top, ?all, ⟨_, exec_decode 0x01#8 s, hdiscS⟩,
    fun raw => ⟨_, exec_decode raw s, (markerBits_eq_zero_iff _).1 (hlegal.markerFree raw)⟩⟩
  case keypad1 =>
    rw [exec_decode, hkeypad1]
    rfl
  case top =>
    rw [exec_decode, htop]
    rfl
  case all =>
    rw [exec_decode, hall]
    rfl

/-- A keypad key owns the row line and is returned alone. -/
theorem composedDecode_of_keypad {raw : Byte} (h : keypadSet raw ≠ 0#36) (allMatches : Bool) :
    composedDecode allMatches raw = keypadSet raw :=
  if_pos h

theorem composedDecode_of_no_keypad {raw : Byte} (h : keypadSet raw = 0#36) (allMatches : Bool) :
    composedDecode allMatches raw = discSet raw (decodeDiscMode allMatches) ||| actionSet raw :=
  if_neg (not_not.2 h)

/-- Settles O32, by whether DECODE_KEYPAD answers a key. -/
theorem defaultDecodeComposesTheFamilies : Obligations.DefaultDecodeComposesTheFamilies := by
  intro s raw hdefault
  refine ⟨keypadSet raw, discSet raw (decodeDiscMode s.params.decodeDiscAllMatches), actionSet raw,
    exec_eq_responseOf (.decodeKeypad raw) s, exec_eq_responseOf (.decodeDisc raw _) s,
    exec_eq_responseOf (.decodeAction raw) s, fun hkey => ?keypad, fun hno => ?noKeypad⟩
  case keypad => rw [exec_decode, goldenDecode_of_eq_none hdefault, composedDecode_of_keypad hkey, keysResponse]
  case noKeypad => rw [exec_decode, goldenDecode_of_eq_none hdefault, composedDecode_of_no_keypad hno, keysResponse]

/-! ### When a partial decoder answers nothing -/

theorem keyBit_ne_zero (k : Key) : keyBit k ≠ 0#36 := by
  intro h
  have hmem : hasKey (keyBit k) k = true := (hasKey_keyBit k k).2 rfl
  simp [h] at hmem

theorem keypadSet_eq_zero_iff (raw : Byte) : keypadSet raw = 0#36 ↔ keypadKey raw = none := by
  rw [keypadSet]
  split
  next k hkey => simp [hkey, keyBit_ne_zero]
  next hkey => simp [hkey]

/-- The column lines bridge no button: fewer than two of them are set. -/
def noButton (raw : Byte) : Bool := rawCol raw ∈ [0b000#3, 0b001#3, 0b010#3, 0b100#3]

theorem actionSet_eq_zero_iff (raw : Byte) : actionSet raw = 0#36 ↔ noButton raw = true := by
  unfold actionSet noButton
  generalize rawCol raw = col
  revert col
  decide

/-- A line in RAW is in the code of one of the directions DECODE_DISC answers, in both modes. -/
theorem exists_direction_of_mem_linesOf {raw : Byte} {c : Nat} (h : c ∈ linesOf raw) (mode : DiscMode) :
    ∃ d, hasKey (discSet raw mode) d = true ∧ (discCode d).getLsbD c = true := by
  have lines : ∀ c < 4, ∀ fine, (discCode (singleDir c fine)).getLsbD c = true := by decide
  have pairs : ∀ p ∈ adjacentPairs, ∀ fine, ∀ c ∈ [p.1, p.2], (discCode (pairDir p fine)).getLsbD c = true := by
    decide
  have hline := lines c (lt_of_mem_linesOf h) (rawFine raw)
  cases mode with
  | allMatches =>
    refine ⟨singleDir c (rawFine raw), ?_, hline⟩
    rw [discSet_allMatches, hasKey_allMatchesSet]
    exact (candidate_singleDir (lt_of_mem_linesOf h) _ raw).2 ⟨rfl, h⟩
  | partialMatch =>
    simp only [discSet_partialMatch, hasKey_partialMatchSet]
    by_cases hcovered : covered c raw = true
    · obtain ⟨p, hp, hcp⟩ := (covered_iff c raw).1 hcovered
      exact ⟨pairDir p (rawFine raw), .inl ⟨p, hp, rfl⟩,
        pairs p ((mem_pairsOf raw p).1 hp).1 _ c (by simpa [eq_comm] using hcp)⟩
    · exact ⟨singleDir c (rawFine raw), .inr ⟨c, h, hcovered, rfl⟩, hline⟩

theorem exists_mem_linesOf {raw : Byte} (h : rawNib raw ≠ 0#4) : ∃ c, c ∈ linesOf raw := by
  by_contra hnone
  apply h
  apply BitVec.eq_of_getLsbD_eq
  intro c _
  have hc : ¬ c ∈ linesOf raw := fun hmem => hnone ⟨c, hmem⟩
  simpa [mem_linesOf] using hc

theorem discSet_eq_zero_iff (raw : Byte) (mode : DiscMode) : discSet raw mode = 0#36 ↔ rawNib raw = 0#4 := by
  refine ⟨fun h => ?_, fun h => if_pos h⟩
  by_contra hnib
  obtain ⟨c, hc⟩ := exists_mem_linesOf hnib
  obtain ⟨d, hd, -⟩ := exists_direction_of_mem_linesOf hc mode
  simp [h] at hd

/-- The default DECODE is empty where there is neither a row or disc line nor a button; a keypad key needs a row
line. -/
theorem composedDecode_eq_zero_iff (allMatches : Bool) (raw : Byte) :
    composedDecode allMatches raw = 0#36 ↔ rawNib raw = 0#4 ∧ noButton raw = true := by
  by_cases hkey : keypadSet raw = 0#36
  · rw [composedDecode_of_no_keypad hkey, BitVec.or_eq_zero_iff, discSet_eq_zero_iff, actionSet_eq_zero_iff]
  · rw [composedDecode_of_keypad hkey]
    refine iff_of_false hkey fun ⟨hnib, _⟩ => hkey (keypadSet_eq_zero_of_not_onehot (.inl ?_))
    rw [hnib]
    decide

/-- Settles O36: RAW[4] is free, and the column has at most one line. -/
theorem exactlyEightBytesDecodeToNothing : Obligations.ExactlyEightBytesDecodeToNothing := by
  intro s raw hdefault
  have bytes : ∀ b : Byte, (rawNib b = 0#4 ∧ noButton b = true) ↔
      b ∈ [0x00#8, 0x10#8, 0x20#8, 0x30#8, 0x40#8, 0x50#8, 0x80#8, 0x90#8] := by decide
  refine ⟨goldenDecode s.params raw, exec_decode raw s, ?_⟩
  rw [goldenDecode_of_eq_none hdefault, composedDecode_eq_zero_iff]
  exact bytes raw

/-! ### ENCODE (R142) -/

/-- Settles O39: the register value is the sentinel or the OR of the patterns. -/
theorem encodeOrsThePatternsOfTheRealKeys : Obligations.EncodeOrsThePatternsOfTheRealKeys := by
  intro s ks
  refine ⟨registerValue ks, exec_encode (some ks) s, registerValue_eq_idleSentinel, fun hreal j => ?_⟩
  rw [registerValue_eq_orCodes hreal, orCodes_getLsbD]
  simp only [mem_realKeysOf, and_assoc, and_left_comm]

/-- Settles O42: both pairs OR to 0xA5. -/
theorem reservedPairsShareOneRegisterValue : Obligations.ReservedPairsShareOneRegisterValue := by
  intro s p hp
  have pairs : ∀ p ∈ reservedPairs, encodeKeys (some (keySetOf [p.1, p.2])) = 0xA5#8 := by decide
  rw [exec_encode, pairs p hp, byteResponse]

/-- The patterns of the one real key are its code. -/
theorem orCodes_realKeysOf_keyBit {k : Key} (h : isReal k = true) : orCodes (realKeysOf (keyBit k)) = code k := by
  apply BitVec.eq_of_getLsbD_eq
  intro j _
  rw [Bool.eq_iff_iff, orCodes_getLsbD]
  simp [h]

theorem registerValue_keyBit {k : Key} (h : isReal k = true) : registerValue (keyBit k) = code k := by
  rw [registerValue_eq_orCodes ⟨k, (hasKey_keyBit k k).2 rfl, h⟩, orCodes_realKeysOf_keyBit h]

/-- Settles O37: the code of a real key is decoded to it. -/
theorem singleKeysSurviveTheRoundTrip : Obligations.SingleKeysSurviveTheRoundTrip := by
  intro s k hdefault hpartial hreal
  have keys : ∀ k ∈ realKeys, composedDecode false (code k) = keyBit k := by decide
  have hencode : encodeKeys (some (1#36 <<< keyIndex k)) = code k := registerValue_keyBit hreal
  refine ⟨code k, ?encode, ?decode⟩
  case encode => rw [exec_encode, hencode, byteResponse]
  case decode =>
    rw [exec_decode, goldenDecode_of_eq_none hdefault, hpartial, keys k ((mem_realKeys k).2 hreal), keysResponse,
      keyBit]

/-! ### ENCODE of what the default DECODE answers (R146) -/

theorem candidate_of_hasKey_discSet {raw : Byte} {mode : DiscMode} {d : Key}
    (h : hasKey (discSet raw mode) d = true) : Statements.candidate raw d := by
  cases mode with
  | allMatches => rwa [discSet_allMatches, hasKey_allMatchesSet] at h
  | partialMatch =>
    rw [discSet_partialMatch, hasKey_partialMatchSet_iff_tightest] at h
    exact h.1

theorem code_of_isDisc {d : Key} (h : isDisc d = true) : code d = (discCode d).setWidth 8 := by
  have hfamily : keyFamily d = .disc := eq_of_beq h
  rw [code, hfamily]

theorem getLsbD_and_low5 (raw : Byte) (j : Nat) :
    (raw &&& 0x1F#8).getLsbD j = true ↔ raw.getLsbD j = true ∧ j < 5 := by
  rw [show 0x1F#8 = (BitVec.allOnes 5).setWidth 8 from rfl, BitVec.getLsbD_and, Bool.and_eq_true,
    BitVec.getLsbD_setWidth, BitVec.getLsbD_allOnes, Bool.and_eq_true, decide_eq_true_eq, decide_eq_true_eq]
  exact and_congr_right fun _ => ⟨fun h => h.2, fun h => ⟨by omega, h⟩⟩

/-- The code of a candidate lies inside RAW[4:0]. -/
theorem getLsbD_of_candidate {raw : Byte} {d : Key} (h : Statements.candidate raw d) {j : Nat}
    (hj : (discCode d).getLsbD j = true) : (raw &&& 0x1F#8).getLsbD j = true := by
  obtain ⟨-, hfine, -, hinside⟩ := h
  have hlt : j < 5 := BitVec.lt_of_getLsbD hj
  refine (getLsbD_and_low5 raw j).2 ⟨?_, hlt⟩
  obtain rfl | hnib : j = 4 ∨ j < 4 := by omega
  · rw [← hfine, hj]
  · have hbit := congrArg (BitVec.getLsbD · j) hinside
    simpa [hnib, hj] using hbit

/-- Every line in RAW and its fine bit are in the patterns DECODE_DISC answers, and nothing else is. -/
theorem orCodes_discSet {raw : Byte} (h : rawNib raw ≠ 0#4) (mode : DiscMode) :
    orCodes (realKeysOf (discSet raw mode)) = raw &&& 0x1F#8 := by
  apply BitVec.eq_of_getLsbD_eq
  intro j _
  rw [Bool.eq_iff_iff, orCodes_getLsbD]
  constructor
  · rintro ⟨d, hmem, hj⟩
    have hanswer := ((mem_realKeysOf _ d).1 hmem).2
    rw [code_of_isDisc (isDisc_of_hasKey_discSet hanswer), BitVec.getLsbD_setWidth, Bool.and_eq_true] at hj
    exact getLsbD_of_candidate (candidate_of_hasKey_discSet hanswer) hj.2
  · intro hj
    obtain ⟨hraw, hlt⟩ := (getLsbD_and_low5 raw j).1 hj
    have hdirection : ∃ d, hasKey (discSet raw mode) d = true ∧ (discCode d).getLsbD j = true := by
      obtain rfl | hnib : j = 4 ∨ j < 4 := by omega
      · obtain ⟨c, hc⟩ := exists_mem_linesOf h
        obtain ⟨d, hd, -⟩ := exists_direction_of_mem_linesOf hc mode
        exact ⟨d, hd, (candidate_of_hasKey_discSet hd).2.1.trans hraw⟩
      · exact exists_direction_of_mem_linesOf ((mem_linesOf raw j).2 (by simp [rawNib, hnib, hraw])) mode
    obtain ⟨d, hd, hbit⟩ := hdirection
    have hdisc := isDisc_of_hasKey_discSet hd
    refine ⟨d, (mem_realKeysOf _ d).2 ⟨isReal_of_isDisc hdisc, hd⟩, ?_⟩
    rw [code_of_isDisc hdisc, BitVec.getLsbD_setWidth, hbit, Bool.and_true, decide_eq_true_eq]
    omega

/-- The buttons DECODE_ACTION answers have the column lines of RAW as their patterns. -/
theorem orCodes_actionSet {raw : Byte} (h : noButton raw = false) :
    orCodes (realKeysOf (actionSet raw)) = raw &&& 0xE0#8 := by
  rw [show 0xE0#8 = (0b111#3).setWidth 8 <<< 5 from rfl, and_columnPattern]
  revert h
  unfold actionSet noButton
  generalize rawCol raw = col
  revert col
  decide

/-- What ENCODE answers to the key set the default DECODE answers for a byte. A keypad key loses the fine bit; otherwise
the disc bits stay where there is a line, the column bits where there is a button, and nothing at all encodes to the
sentinel. -/
def reencodedByte (raw : Byte) : Byte :=
  if (keypadKey raw).isSome then raw &&& 0xEF#8
  else if rawNib raw = 0#4 then if noButton raw then idleSentinel else raw &&& 0xE0#8
  else if noButton raw then raw &&& 0x1F#8
  else raw

theorem composedDecode_isReal {allMatches : Bool} {raw : Byte} {k : Key}
    (h : hasKey (composedDecode allMatches raw) k = true) : isReal k = true := by
  by_cases hkey : keypadSet raw = 0#36
  · rw [composedDecode_of_no_keypad hkey, hasKey_or, Bool.or_eq_true] at h
    obtain hdisc | haction := h
    · exact isReal_of_isDisc (isDisc_of_hasKey_discSet hdisc)
    · exact isReal_of_isAction (isAction_of_hasKey_actionSet haction)
  · rw [composedDecode_of_keypad hkey] at h
    exact isReal_of_isKeypad (isKeypad_of_hasKey_keypadSet h)

theorem registerValue_zero : registerValue 0#36 = idleSentinel :=
  registerValue_eq_idleSentinel fun k hk => by simp at hk

/-- A set that is not empty and holds real keys only has the OR of their patterns as its register value. -/
theorem registerValue_of_ne_zero {ks : KeySet} (hne : ks ≠ 0#36) (hreal : ∀ k, hasKey ks k = true → isReal k = true) :
    registerValue ks = orCodes (realKeysOf ks) := by
  apply registerValue_eq_orCodes
  by_contra hnone
  exact hne (keySet_eq_zero_of_forall_hasKey fun k hk => hnone ⟨k, hk, hreal k hk⟩)

theorem orCodes_realKeysOf_zero : orCodes (realKeysOf 0#36) = 0#8 := by decide

/-- The register value of what the default DECODE answers, family by family: a keypad key alone, else the OR of the
disc patterns and the button patterns, each present or not. -/
theorem registerValue_composedDecode (allMatches : Bool) (raw : Byte) :
    registerValue (composedDecode allMatches raw) = reencodedByte raw := by
  unfold reencodedByte
  cases hkey : keypadKey raw with
  | some k =>
    have hanswer := keypadSet_of_keypadKey_eq_some hkey
    have hmem : hasKey (keypadSet raw) k = true := by simp [hanswer]
    have hne : keypadSet raw ≠ 0#36 := by simp [keypadSet_eq_zero_iff, hkey]
    rw [composedDecode_of_keypad hne, if_pos Option.isSome_some, code_of_hasKey_keypadSet hmem, hanswer,
      keySetOf_singleton, registerValue_keyBit (isReal_of_isKeypad (isKeypad_of_keypadKey hkey))]
  | none =>
    have hno : keypadSet raw = 0#36 := (keypadSet_eq_zero_iff raw).2 hkey
    rw [if_neg (by simp)]
    by_cases hempty : composedDecode allMatches raw = 0#36
    · obtain ⟨hnib, hbutton⟩ := (composedDecode_eq_zero_iff allMatches raw).1 hempty
      rw [hempty, registerValue_zero, if_pos hnib, if_pos hbutton]
    · rw [registerValue_of_ne_zero hempty fun _ => composedDecode_isReal, composedDecode_of_no_keypad hno,
        orCodes_realKeysOf_or]
      rw [composedDecode_eq_zero_iff] at hempty
      split_ifs with hnib hbutton hbutton
      · exact absurd ⟨hnib, hbutton⟩ hempty
      · rw [(discSet_eq_zero_iff raw _).2 hnib, orCodes_realKeysOf_zero, orCodes_actionSet (by simpa using hbutton),
          BitVec.zero_or]
      · rw [(actionSet_eq_zero_iff raw).2 hbutton, orCodes_realKeysOf_zero, orCodes_discSet hnib, BitVec.or_zero]
      · rw [orCodes_discSet hnib, orCodes_actionSet (by simpa using hbutton), ← BitVec.and_or_distrib_left]
        exact BitVec.and_allOnes

theorem reencoded_eq_registerValue (s : State) (raw : Byte) :
    Statements.reencoded s raw = some (registerValue (goldenDecode s.params raw)) := by
  rw [Statements.reencoded, exec_decode]
  simp [exec_encode, encodeKeys]

theorem reencoded_of_default {s : State} (h : s.params.goldenDecode = none) (raw : Byte) :
    Statements.reencoded s raw = some (reencodedByte raw) := by
  rw [reencoded_eq_registerValue, goldenDecode_of_eq_none h, registerValue_composedDecode]

/-- Settles O38: counting the bytes that `reencodedByte` keeps. -/
theorem reencodingGivesBack166Bytes : Obligations.ReencodingGivesBack166Bytes := by
  intro s hdefault _
  have count : ((List.range 256).filter fun n =>
      some (reencodedByte (BitVec.ofNat 8 n)) == some (BitVec.ofNat 8 n)).length = 166 := rfl
  simp only [reencoded_of_default hdefault]
  exact ⟨fun raw => ⟨reencodedByte raw, rfl⟩, count⟩

/-! ### The default parameters are legal (R141, R192) -/

section
variable {p : Params} (hgolden : p.goldenDecode = none) (hreserved : p.reservedBytes = [0xA5#8])

include hreserved in
theorem byteReserved_iff_of_default (raw : Byte) : byteReserved p raw = true ↔ raw = 0xA5#8 := by
  rw [byteReserved, hreserved, List.contains_iff_mem, List.mem_singleton]

include hgolden in
theorem goldenMarkerFree_of_default : goldenMarkerFree p := by
  intro raw
  rw [goldenDecode_of_eq_none hgolden]
  exact markerBits_eq_zero_of_isReal fun _ => composedDecode_isReal

include hgolden in
theorem goldenLiterals_of_default : goldenLiterals p := by
  simp only [goldenLiterals, goldenDecode_of_eq_none hgolden]
  cases p.decodeDiscAllMatches <;> decide

include hgolden hreserved in
/-- P3: only 0xA5 decodes to a set with register value 0xA5. -/
theorem goldenAgreesWithDetector_of_default : goldenAgreesWithDetector p := by
  intro raw
  have bytes : ∀ b : Byte, reencodedByte b = 0xA5#8 ↔ b = 0xA5#8 := by decide
  rw [Bool.eq_iff_iff, keysReserved, encodeKeys, byteReserved_iff_of_default hreserved,
    byteReserved_iff_of_default hreserved, goldenDecode_of_eq_none hgolden, registerValue_composedDecode]
  exact bytes raw

include hgolden in
/-- P4: 0x00 and 0x10 both decode to the empty set. -/
theorem goldenNotInjective_of_default : goldenNotInjective p := by
  have hempty : ∀ b ∈ [0x00#8, 0x10#8], rawNib b = 0#4 ∧ noButton b = true := by decide
  refine ⟨0x00#8, 0x10#8, by decide, ?_⟩
  rw [goldenDecode_of_eq_none hgolden, goldenDecode_of_eq_none hgolden,
    (composedDecode_eq_zero_iff _ _).2 (hempty 0x00#8 (by simp)),
    (composedDecode_eq_zero_iff _ _).2 (hempty 0x10#8 (by simp))]

include hreserved in
theorem oracleEntries_of_default : oracleEntries p := by
  simp only [oracleEntries, keysReserved, byteReserved, hreserved]
  decide

end

/-- Settles O35: each constraint under the default table and list. -/
theorem defaultParametersAreLegal : Obligations.DefaultParametersAreLegal := by
  intro p hgolden hreserved
  exact {
    markerFree := goldenMarkerFree_of_default hgolden
    literals := goldenLiterals_of_default hgolden
    agrees := goldenAgreesWithDetector_of_default hgolden hreserved
    notInjective := goldenNotInjective_of_default hgolden
    oracle := oracleEntries_of_default hreserved
    canonical := by simp [reservedCanonical, hreserved] }

/-- Settles O6: reset has the default parameters and no response. -/
theorem resetMeetsTheInvariant : Obligations.ResetMeetsTheInvariant where
  params := defaultParametersAreLegal _ rfl rfl
  response r h := by cases h

end Sys2Proof.Machine

/-! ## The sensitivity expander: 44_sensitivity_expander.md R170, R171 -/

namespace Sys2Proof.Machine

/-! ### The sectors (R171) -/

/-- EXPAND of a present set answers the union of the sectors and changes nothing else. -/
theorem exec_expand (ks : KeySet) (radius : RadiusField) (s : State) :
    exec (.expand (some ks) radius) s = .next { s with response := some (keysResponse (expandSet ks radius)) } :=
  exec_eq_responseOf (.expand (some ks) radius) s

theorem eq_disc_iff (k : Key) (i : Int) : k = disc i ↔ isDisc k = true ∧ (keyIndex k : Int) = i % 16 := by
  constructor
  · rintro rfl
    exact ⟨isDisc_disc i, ring_disc i⟩
  · rintro ⟨-, hindex⟩
    apply keyIndex_injective
    have hdisc : (keyIndex (disc i) : Int) = i % 16 := ring_disc i
    omega

/-- Settles O43: a key of a sector is the Disc value at an offset from the nominal one. -/
theorem expandAnswersTheSectors : Obligations.ExpandAnswersTheSectors := by
  intro s ks radius
  refine ⟨expandSet ks radius, exec_expand ks radius s, fun k => ?_⟩
  simp only [hasKey_expandSet, mem_sector, eq_disc_iff]
  constructor
  · rintro ⟨d, hd, hmem, off, hoff, hk, hindex⟩
    exact ⟨hk, d, off, hd, hmem, hoff, hindex⟩
  · rintro ⟨hk, d, off, hd, hmem, hoff, hindex⟩
    exact ⟨d, hd, hmem, off, hoff, hk, hindex⟩

/-! ### The radius (R170) -/

/-- EXPAND reads the radius through its clamped absolute value. -/
theorem responseOf_expand_congr {r r' : RadiusField} (h : effectiveRadius r = effectiveRadius r') (p : Params)
    (ks : Option KeySet) : responseOf p (.expand ks r) = responseOf p (.expand ks r') := by
  cases ks with
  | none => rfl
  | some ks => rw [responseOf, responseOf, expandSet, expandSet, h]

/-- Settles O44: equal clamped values are equal effective radii. -/
theorem expandReadsOnlyTheClampedRadius : Obligations.ExpandReadsOnlyTheClampedRadius := by
  intro s ks r r' h
  refine ⟨responseOf s.params (.expand ks r), exec_eq_responseOf _ s, ?_⟩
  rw [responseOf_expand_congr h]
  exact exec_eq_responseOf _ s

/-! ### Radius 0 (R171, corner cases) -/

/-- The mask of bits 15:0 is the Disc family. -/
theorem hasKey_discMask (k : Key) : hasKey 0xFFFF#36 k = isDisc k :=
  forall_key_iff.2 (by decide : ∀ k ∈ allKeys, hasKey 0xFFFF#36 k = isDisc k) k

theorem mem_sector_zero {d : Key} (hd : isDisc d = true) (k : Key) : k ∈ sector 0 d ↔ k = d := by
  simp [mem_sector, disc_ring hd]

theorem expandSet_zero (ks : KeySet) : expandSet ks 0#32 = ks &&& 0xFFFF#36 := by
  have hradius : effectiveRadius 0#32 = 0 := by decide
  apply keySet_ext
  intro k
  rw [hasKey_expandSet, hradius, hasKey_and, hasKey_discMask, Bool.and_eq_true]
  constructor
  · rintro ⟨d, hd, hmem, hk⟩
    obtain rfl := (mem_sector_zero hd k).1 hk
    exact ⟨hmem, hd⟩
  · rintro ⟨hmem, hk⟩
    exact ⟨k, hk, hmem, (mem_sector_zero hk k).2 rfl⟩

/-- Settles O45: each sector is its nominal direction alone. -/
theorem expandByZeroIsTheNominalSet : Obligations.ExpandByZeroIsTheNominalSet := by
  intro s ks
  rw [exec_expand, expandSet_zero, keysResponse]

/-! ### One nominal direction (R171, corner cases) -/

theorem hasKey_expandSet_keyBit {d : Key} (hd : isDisc d = true) (radius : RadiusField) (k : Key) :
    hasKey (expandSet (keyBit d) radius) k = true ↔ k ∈ sector (effectiveRadius radius) d := by
  rw [hasKey_expandSet]
  constructor
  · rintro ⟨e, -, he, hk⟩
    rwa [(hasKey_keyBit d e).1 he] at hk
  · intro hk
    exact ⟨d, hd, (hasKey_keyBit d d).2 rfl, hk⟩

theorem ringOffsets_nodup (r : Nat) : (ringOffsets r).Nodup := by
  apply List.nodup_range.map
  intro a b hab
  have hshift : (a : Int) - r = b - r := hab
  omega

/-- Up to 7 steps either way the directions of a sector are different: the ring has 16. -/
theorem sector_nodup {r : Nat} (hr : r ≤ 7) (d : Key) : (sector r d).Nodup := by
  apply (ringOffsets_nodup r).map_on
  intro a ha b hb hab
  rw [mem_ringOffsets] at ha hb
  have hring : ((ring d : Int) + a) % 16 = (ring d + b) % 16 := by rw [← ring_disc, ← ring_disc, hab]
  omega

theorem sector_length (r : Nat) (d : Key) : (sector r d).length = 2 * r + 1 := by
  simp [sector, ringOffsets]

/-- A key set whose keys are those of a list without repeats has as many bits set as the list has keys. -/
theorem length_setBits_of_nodup {ks : KeySet} {l : List Key} (hl : l.Nodup)
    (h : ∀ k, hasKey ks k = true ↔ k ∈ l) : (setBits ks).length = l.length := by
  have hperm : (setBits ks).Perm (l.map keyIndex) := by
    refine (List.perm_ext_iff_of_nodup (List.nodup_range.filter _)
      (hl.map fun _ _ => keyIndex_injective)).2 fun i => ?_
    rw [List.mem_filter, List.mem_range, List.mem_map]
    constructor
    · rintro ⟨hi, hbit⟩
      obtain ⟨k, rfl⟩ := exists_keyIndex hi
      exact ⟨k, (h k).1 hbit, rfl⟩
    · rintro ⟨k, hk, rfl⟩
      exact ⟨keyIndex_lt k, (h k).2 hk⟩
  rw [hperm.length_eq, List.length_map]

/-- Seven steps either way reach every direction but the one eight steps away. -/
theorem mem_sector_seven {d : Key} (hd : isDisc d = true) (k : Key) :
    k ∈ sector 7 d ↔ isDisc k = true ∧ k ≠ antipode d := by
  have hlt := (isDisc_iff d).1 hd
  simp only [mem_sector, antipode, ne_eq, eq_disc_iff, ring]
  constructor
  · rintro ⟨off, hoff, hk, hindex⟩
    exact ⟨hk, fun ⟨_, hopposite⟩ => by omega⟩
  · rintro ⟨hk, hne⟩
    have hk16 := (isDisc_iff k).1 hk
    have hopposite : ¬ (keyIndex k : Int) = (keyIndex d + 8) % 16 := fun h => hne ⟨hk, h⟩
    exact ⟨((keyIndex k : Int) - keyIndex d + 8) % 16 - 8, by omega, hk, by omega⟩

/-- Settles O46: the answer is the sector of the direction, which has no repeats. -/
theorem expandOfOneDirection : Obligations.ExpandOfOneDirection := by
  intro s d radius hd
  have hanswer := hasKey_expandSet_keyBit hd radius
  refine ⟨expandSet (keyBit d) radius, exec_expand (keyBit d) radius s, ?count, fun hseven k => ?allButOne⟩
  case count =>
    have hlength := length_setBits_of_nodup (sector_nodup (effectiveRadius_le radius) d) hanswer
    exact hlength.trans (sector_length _ d)
  case allButOne =>
    have hradius : effectiveRadius radius = 7 := Nat.min_eq_right hseven
    rw [hanswer, hradius, mem_sector_seven hd]

end Sys2Proof.Machine

/-! ## The reserved-combination detector: 45_reserved_detector.md R190 to R194 -/

namespace Sys2Proof.Machine

open Sys2Proof.Statements (sevenKeys minimalReservedSets)

/-! ### IS_RESERVED_BYTE and IS_RESERVED_KEYS (R190, R191) -/

theorem exec_isReservedByte (raw : Byte) (s : State) :
    exec (.isReservedByte raw) s = .next { s with response := some (boolResponse (byteReserved s.params raw)) } :=
  exec_eq_responseOf (.isReservedByte raw) s

theorem exec_isReservedKeys (ks : Option KeySet) (s : State) :
    exec (.isReservedKeys ks) s = .next { s with response := some (boolResponse (keysReserved s.params ks)) } :=
  exec_eq_responseOf (.isReservedKeys ks) s

/-- Settles O49: the answer is membership in the list, by default a list of one byte. -/
theorem byteIsReservedWhenListed : Obligations.ByteIsReservedWhenListed := by
  intro s raw
  exact ⟨byteReserved s.params raw, exec_isReservedByte raw s, List.contains_iff_mem,
    fun hdefault => byteReserved_iff_of_default hdefault raw⟩

/-- Settles O50: the detector on keys is the detector on the byte they encode to. -/
theorem keysAreReservedThroughTheirRegisterValue : Obligations.KeysAreReservedThroughTheirRegisterValue := by
  intro s
  exact ⟨exec_isReservedKeys none s, fun ks => ⟨encodeKeys (some ks), keysReserved s.params (some ks),
    exec_encode (some ks) s, exec_isReservedByte _ s, exec_isReservedKeys (some ks) s⟩⟩

/-! ### The oracle (R192, R194) -/

/-- Settles O51: the default parameters are legal, and the entries and the agreement are among what that asks. -/
theorem oracleEntriesAndAgreementHold : Obligations.OracleEntriesAndAgreementHold := by
  intro s hgolden hreserved
  have hlegal := defaultParametersAreLegal s.params hgolden hreserved
  obtain ⟨hpair, hpairTop, hpairRight, hpair', hA5, hA7, h00, hFF, hC5, hC7⟩ := hlegal.oracle
  refine ⟨?keys, ?bytes, fun raw => ?agreement⟩
  case keys =>
    simp [exec_isReservedKeys, hpair, hpairTop, hpairRight, hpair', boolResponse]
  case bytes =>
    simp [exec_isReservedByte, hA5, hA7, h00, hFF, hC5, hC7, boolResponse]
  case agreement =>
    refine ⟨goldenDecode s.params raw, byteReserved s.params raw, exec_decode raw s, ?_,
      exec_isReservedByte raw s⟩
    rw [exec_isReservedKeys, hlegal.agrees raw, boolResponse]

/-! ### The reserved key sets (R193) -/

theorem orCodes_congr {l l' : List Key} (h : ∀ k, k ∈ l ↔ k ∈ l') : orCodes l = orCodes l' := by
  apply BitVec.eq_of_getLsbD_eq
  intro j _
  rw [Bool.eq_iff_iff, orCodes_getLsbD, orCodes_getLsbD]
  simp only [h]

/-- The code of each key lies inside the OR of the codes. -/
theorem code_and_not_orCodes {l : List Key} {k : Key} (h : k ∈ l) : code k &&& ~~~(orCodes l) = 0#8 := by
  apply BitVec.eq_of_getLsbD_eq
  intro j hj
  have hinside : (code k).getLsbD j = true → (orCodes l).getLsbD j = true :=
    fun hbit => (orCodes_getLsbD l j).2 ⟨k, h, hbit⟩
  cases hbit : (code k).getLsbD j with
  | false => rw [BitVec.getLsbD_and, hbit, Bool.false_and, BitVec.getLsbD_zero]
  | true =>
    rw [BitVec.getLsbD_and, BitVec.getLsbD_not, hinside hbit, Bool.not_true, Bool.and_false, Bool.and_false,
      BitVec.getLsbD_zero]

/-- The sentinel is not 0xA5, so only a set with real keys has this register value. -/
theorem registerValue_eq_A5_iff (ks : KeySet) : registerValue ks = 0xA5#8 ↔ orCodes (realKeysOf ks) = 0xA5#8 := by
  rw [registerValue]
  split
  next hempty =>
    rw [List.isEmpty_iff.1 hempty]
    decide
  next => rfl

/-- The seven keys are the real ones whose code lies inside 0xA5. -/
theorem mem_sevenKeys_of_code {k : Key} (hreal : isReal k = true) (h : code k &&& ~~~0xA5#8 = 0#8) :
    k ∈ sevenKeys := by
  have keys : ∀ k ∈ realKeys, code k &&& ~~~0xA5#8 = 0#8 → k ∈ sevenKeys := by decide
  exact keys k ((mem_realKeys k).2 hreal) h

theorem isReal_of_mem_sevenKeys {k : Key} (h : k ∈ sevenKeys) : isReal k = true := by
  revert k
  decide

theorem mem_sevenKeys_of_minimal {m : List Key} (hm : m ∈ minimalReservedSets) {k : Key} (hk : k ∈ m) :
    k ∈ sevenKeys := by
  have sets : ∀ m ∈ minimalReservedSets, ∀ k ∈ m, k ∈ sevenKeys := by decide
  exact sets m hm k hk

/-- Among the 128 choices of the seven keys, those that OR to 0xA5 are those that hold a minimal set. -/
theorem orCodes_eq_A5_iff_of_sublist {l : List Key} (h : l.Sublist sevenKeys) :
    orCodes l = 0xA5#8 ↔ ∃ m ∈ minimalReservedSets, ∀ k ∈ m, k ∈ l := by
  have choices : ∀ discs ∈ [Key.discN, .discS].sublists,
      ∀ others ∈ [Key.keypad1, .keypad3, .keypad7, .keypad9, .actionKeyTop].sublists,
        orCodes (discs ++ others) = 0xA5#8 ↔ ∃ m ∈ minimalReservedSets, ∀ k ∈ m, k ∈ discs ++ others := by decide
  obtain ⟨discs, others, rfl, hdiscs, hothers⟩ := List.sublist_append_iff.1
    (show l.Sublist ([.discN, .discS] ++ [.keypad1, .keypad3, .keypad7, .keypad9, .actionKeyTop]) from h)
  exact choices discs (List.mem_sublists.2 hdiscs) others (List.mem_sublists.2 hothers)

/-- Where every real key is one of the seven, those in the set are its real keys. -/
theorem orCodes_realKeysOf_of_sevenKeys {ks : KeySet}
    (h : ∀ k, hasKey ks k = true → isReal k = true → k ∈ sevenKeys) :
    orCodes (realKeysOf ks) = orCodes (sevenKeys.filter (hasKey ks)) := by
  apply orCodes_congr
  intro k
  rw [mem_realKeysOf, List.mem_filter]
  constructor
  · rintro ⟨hreal, hmem⟩
    exact ⟨h k hmem hreal, hmem⟩
  · rintro ⟨hseven, hmem⟩
    exact ⟨isReal_of_mem_sevenKeys hseven, hmem⟩

/-- The register value is 0xA5 when no real key adds another bit and a minimal set gives the four bits. -/
theorem registerValue_eq_A5_iff_minimal (ks : KeySet) :
    registerValue ks = 0xA5#8 ↔ (∀ k, hasKey ks k = true → isReal k = true → k ∈ sevenKeys) ∧
      ∃ m ∈ minimalReservedSets, ∀ k ∈ m, hasKey ks k = true := by
  rw [registerValue_eq_A5_iff]
  constructor
  · intro h
    have hseven : ∀ k, hasKey ks k = true → isReal k = true → k ∈ sevenKeys := by
      intro k hmem hreal
      apply mem_sevenKeys_of_code hreal
      rw [← h]
      exact code_and_not_orCodes ((mem_realKeysOf ks k).2 ⟨hreal, hmem⟩)
    rw [orCodes_realKeysOf_of_sevenKeys hseven, orCodes_eq_A5_iff_of_sublist List.filter_sublist] at h
    obtain ⟨m, hm, hsub⟩ := h
    exact ⟨hseven, m, hm, fun k hk => (List.mem_filter.1 (hsub k hk)).2⟩
  · rintro ⟨hseven, m, hm, hsub⟩
    rw [orCodes_realKeysOf_of_sevenKeys hseven, orCodes_eq_A5_iff_of_sublist List.filter_sublist]
    exact ⟨m, hm, fun k hk => List.mem_filter.2 ⟨mem_sevenKeys_of_minimal hm hk, hsub k hk⟩⟩

/-- Settles O52: a set is reserved when its register value is 0xA5, which the covers of that byte decide. -/
theorem reservedKeySetsContainAMinimalOne : Obligations.ReservedKeySetsContainAMinimalOne := by
  intro s ks hreserved
  refine ⟨keysReserved s.params (some ks), exec_isReservedKeys (some ks) s, ?_⟩
  rw [keysReserved, encodeKeys, byteReserved_iff_of_default hreserved]
  exact registerValue_eq_A5_iff_minimal ks

end Sys2Proof.Machine

/-! ## The exceptions: 60_exceptions.md R211, R212 -/

namespace Sys2Proof.Machine

/-- Settles O47: the response is `errorResponse`, whose fields are the printed ones. -/
theorem expandOfAbsentRaisesInvalidArgument : Obligations.ExpandOfAbsentRaisesInvalidArgument := by
  intro s radius
  exact ⟨errorResponse .invalidArgument, exec_eq_responseOf (.expand none radius) s, rfl, rfl, by decide⟩

theorem requestFault_of_err {r : Response} (h : r.err = true) : requestFault r = some .invalidArgument := if_pos h

theorem requestFault_of_no_err {r : Response} (h : ¬ r.err = true) : requestFault r = none := if_neg h

/-- Settles O54: the outcome is a fault where ERR is set, which is for EXPAND of an absent key set only. -/
theorem onlyExpandOfAbsentHasAFaultOutcome : Obligations.OnlyExpandOfAbsentHasAFaultOutcome := by
  refine ⟨fun i s => ?operation, fun s w rest hpending => ?request⟩
  case operation =>
    refine ⟨responseOf s.params i, exec_eq_responseOf i s,
      fun habsent => requestFault_of_err ((responseOf_err_iff s.params i).2 habsent), fun hother => ?_⟩
    have herr : ¬ (responseOf s.params i).err = true := by
      rw [responseOf_err_iff]
      exact fun ⟨radius, h⟩ => hother radius h
    obtain ⟨hno, hcode⟩ | herror := responseOf_errorFields s.params i
    · exact ⟨requestFault_of_no_err herr, hno, hcode⟩
    · exact absurd (by rw [herror, errorResponse_err]) herr
  case request =>
    have herr := (responseOf_err_iff s.params (decode w)).trans (decode_eq_expand_none_iff w)
    exact ⟨responseOf s.params (decode w), step_of_requests_eq_cons hpending,
      fun habsent => requestFault_of_err (herr.2 habsent),
      fun hother => requestFault_of_no_err (mt herr.1 hother)⟩

end Sys2Proof.Machine
